-- ==== Sys2Proof/Word.lean ====
section
/-! DEFINITION. The widths of the values the block computes with (00_scope.md R6). -/

namespace Sys2Proof

/-- A byte `b[7:0]` (R6). -/
abbrev Byte := BitVec 8

/-- A nibble: 4 bits (R6). -/
abbrev Nibble := BitVec 4

end Sys2Proof
end

