-- ==== Sys2Proof/Config.lean ====
section
/-! DEFINITION. What is fixed when the block is constructed (00_scope.md R5), and the free values: what the
spec leaves open, as constants without a body. -/

namespace Sys2Proof

/-- The two legal bus widths (R5, R20). -/
inductive BusWidth where
  | four
  | eight
  deriving DecidableEq, Repr

/-- The number of data lines of a bus width. -/
def BusWidth.lines : BusWidth → Nat
  | .four => 4
  | .eight => 8

/-- The implementation parameters of R5. They are data of the machine, fixed at construction: `State` carries them
because a step takes nothing but a state (assumption 2). All times are in microseconds, and whole numbers: R5 gives the
unit and does not say whether a value may be a fraction (DESIGN CHOICE, unsafe: assumption 23). -/
structure Config where
  /-- `N` as the raw number given at construction; only 4 and 8 are legal (R20, R231). -/
  n : Nat
  tEnLow : Nat
  tEnHigh : Nat
  tSettle : Nat
  tInitA : Nat
  tInitB : Nat
  tInitC : Nat
  tClear : Nat
  tHome : Nat
  /-- `CGRAM_CMD(i)` for i = 0 to 7 (R5, D27). -/
  cgramCmd : Vector Byte 8
  /-- `WIRING`: entry i is the controller pin DB[k] that line D[i] reaches (R5, D23). That a line reaches one pin at most
is the model's choice (PRESUMED, unsafe: assumption 20). -/
  wiring : List Nat
  /-- `REG_BASE`: where the register map stands in the host's address space (R54, D3). -/
  regBase : Nat
  deriving DecidableEq, Repr

/-- The legal bus width, if N is one (R20, R231). -/
def Config.width? (c : Config) : Option BusWidth :=
  if c.n = 4 then some .four else if c.n = 8 then some .eight else none

/-- The default parameters of R5 for a block constructed with N = `n`. `REG_BASE` is OPEN in the spec; 0 is the
model's choice for this one configuration (assumption 3). -/
def Config.ardt (n : Nat) : Config where
  n := n
  tEnLow := 1
  tEnHigh := 1
  tSettle := 100
  tInitA := 4500
  tInitB := 4500
  tInitC := 150
  tClear := 2000
  tHome := 2000
  cgramCmd := #v[0x40, 0x48, 0x50, 0x58, 0x60, 0x68, 0x70, 0x78]
  wiring := if n = 8 then [0, 1, 2, 3, 4, 5, 6, 7] else [4, 5, 6, 7]
  regBase := 0

/-! The free values. Nothing in Lean can evaluate one. -/

/-- The k-th duration the world proposes for a bus event, in microseconds (R33, I22; assumption 4). The block
stretches it to the event's lower bound. -/
noncomputable opaque Config.draw : Nat → ℝ

/-- `T_POWERON`, the wait the host owes before INIT: OPEN (R5, R252, D21; assumption 5). -/
opaque Config.tPowerOn : Nat

/-- FS of a block whose construction failed, but for its hardwired bits: reset stops before it is set (R23, R231, R250
step 1; assumption 6). -/
opaque Config.unsetFS : Byte

/-- DC of a block whose construction failed, but for its hardwired bits (R24; assumption 6). -/
opaque Config.unsetDC : Byte

/-- DM of a block whose construction failed, but for its hardwired bits (R25; assumption 6). -/
opaque Config.unsetDM : Byte

/-- The level of the i-th line of a block whose construction failed: it drives none (R231; assumption 6). -/
opaque Config.undriven : Nat → Bool

/-- The level the receiver finds on controller pin k at its j-th latch when no data line is wired to that pin
(R202: the block "drives DB7..DB4 only"), or more than one is (assumption 20). -/
opaque Config.floatingPin (j k : Nat) : Bool

/-- The register-select level the receiver takes for a byte whose two nibbles it latched with different levels, the
second being its j-th latch (R201, R202; assumption 24). -/
opaque Config.pairSelect (j : Nat) : Bool

/-- Where the receiver's DDRAM address counter goes when it leaves its range at the j-th latch (R207, I8). It is free
each time anew, so it may depend on the address, the direction and the number of rows; that the counter stays in DDRAM
is the model's choice (assumption 21). -/
opaque Config.ddramEdge (j : Nat) : BitVec 7

/-- Where the receiver's CGRAM address counter goes when it leaves its range at the j-th latch (R204). It is free each
time anew; that the counter stays in CGRAM is the model's choice (assumption 21). -/
opaque Config.cgramEdge (j : Nat) : BitVec 6

/-- Whether the receiver's address counter points into CGRAM after its j-th latch, where the spec does not fix it
(assumption 21). -/
opaque Config.freeInCgram (j : Nat) : Bool

/-- The address in the receiver's address counter after its j-th latch, where the spec does not fix it
(assumption 21). -/
opaque Config.freeAddress (j : Nat) : BitVec 7

/-- The k-th cell of the receiver's memories, DDRAM and then CGRAM, after its j-th latch, where the spec does not fix it
(I8, I25; assumption 21). -/
opaque Config.freeCell (j k : Nat) : Byte

/-- The k-th flag of the receiver after its j-th latch, where the spec does not fix it (I25; assumption 25). -/
opaque Config.freeFlag (j k : Nat) : Bool

/-- How long the receiver takes for the command byte 0x00, in microseconds (R206; assumption 25). -/
opaque Config.noCommandTime : Nat

/-- The pixel rows a custom glyph of the given CGRAM rows shows with the 5x11 font, in 2-row mode or not (I6;
assumption 22). -/
opaque Config.tallGlyph (twoLine : Bool) (rows : List (BitVec 5)) : List (BitVec 5)

/-- The pixel rows the receiver's character ROM gives for a code, with the 5x11 font or not and in 2-row mode or not
(R205, I6, I12; assumption 22). -/
opaque Config.characterRom (tallFont twoLine : Bool) (code : Byte) : List (BitVec 5)

end Sys2Proof
end

