-- ==== Sys2Proof/Machine/State.lean ====
section
/-! DEFINITION. The state of the block (10_state.md), of the host beside it, and the machine right after reset. -/

namespace Sys2Proof.Machine

/-- An output line of the block (R21). Line `d i` exists when i < N. -/
inductive Line where
  | rs
  | e
  | d (i : Nat)
  deriving DecidableEq, Repr

/-- A bus event (R180, R181): a line takes a level, or at least t µs pass with no line change. That t is a whole number
is the model's choice (DESIGN CHOICE, unsafe: assumption 23). -/
inductive BusEvent where
  | drive (line : Line) (level : Bool)
  | wait (t : Nat)
  deriving DecidableEq, Repr

/-- An entry of the trace: an event, and which draw its duration is (R33, R36). The duration itself, a real number of
microseconds, is `Performed.duration` (assumption 4). -/
structure Performed where
  event : BusEvent
  draw : Nat
  deriving DecidableEq, Repr

/-- The levels of the output lines (R21), and whether they are configured as outputs (R22). Entry i of `d` is the
level of line D[i]. -/
structure Lines where
  outputs : Bool
  rs : Bool
  e : Bool
  d : List Bool
  deriving DecidableEq, Repr

/-- The bits of STATUS (R27). -/
structure Status where
  busy : Bool
  fault : Bool
  initDone : Bool
  rqPart : Bool
  deriving DecidableEq, Repr

/-- The configuration errors (60_exceptions.md R221). -/
inductive ConfigError where
  | badBusWidth
  | badLineCount
  | badFont
  | badRow
  | badColumn
  | badGlyphIndex
  | badBool
  | badOpcode
  | busWidthMismatch
  deriving DecidableEq, Repr

/-- What the outside world does to the block next. Addresses are host addresses: offset 0 of the register map
stands at `REG_BASE` (R51, R54). -/
inductive HostAction where
  /-- The host lets one block step pass. -/
  | pass
  /-- The host reads a byte. -/
  | read (address : Nat)
  /-- The host writes a byte. -/
  | write (address : Nat) (b : Byte)
  /-- The block is reset (R250). -/
  | reset
  /-- A second agent writes a byte (R229). -/
  | secondAgentWrite (address : Nat) (b : Byte)
  /-- Something other than the block drives a line of the bus (R257). -/
  | foreignDrive (line : Line) (level : Bool)
  deriving DecidableEq, Repr

/-- The state. Everything up to `tr` is the spec's (10_state.md section 1); `draws`, `host` and `answers` are the
model's own (assumptions 4 and 7). -/
structure State where
  /-- The construction parameters, N among them (R5, R20). CFG is N (R26). -/
  config : Config
  /-- RS, E and D[0] to D[N-1] (R21, R22). -/
  lines : Lines
  /-- FunctionSet shadow (R23). -/
  fs : Byte
  /-- DisplayControl shadow (R24). -/
  dc : Byte
  /-- DisplayMode shadow (R25). -/
  dm : Byte
  /-- STATUS (R27). -/
  status : Status
  /-- ERRCODE (R28). -/
  errcode : Byte
  /-- ERRINFO (R29). -/
  errinfo : Byte
  /-- SEQ: the events the current request still has to perform (R30). -/
  seq : List BusEvent
  /-- CUROP: the opcode of the current request (R30). -/
  curop : Byte
  /-- RQ: the request assembly buffer (R32). -/
  rq : List Byte
  /-- TR: the events performed, first one first (R36). -/
  tr : List Performed
  /-- How many durations have been drawn. -/
  draws : Nat
  /-- What the outside world still does, next action first. -/
  host : List HostAction
  /-- The bytes the host's reads have returned, first one first. -/
  answers : List Byte
  deriving DecidableEq, Repr

/-- Why the machine stops with a fault. The block's own exception, the configuration error, is not among them: it
is taken, as a next state (R223). -/
inductive Fault where
  /-- Raised by a step when something other than the block drives a line of the bus: R257 says nothing else may, and
  gives no effect. Safe: the run stops. -/
  | foreignDrive
  deriving DecidableEq, Repr

/-- Why a step has no meaning. -/
inductive Refusal where
  /-- An instruction that has no meaning yet. Raised by no arm of `exec`. Safe. -/
  | notModelled (mnemonic : String)
  /-- A request executed while STATUS.BUSY = 1, raised by the meaning of every request: "the host has no such step"
  (I37, D33, R259). `step` never does it, it holds the REQ write. Safe. -/
  | requestWhileBusy
  /-- A second agent wrote to the block, raised by a step: "A second agent that writes REQ is refused by the model"
  (R229, D35). Safe. -/
  | secondAgent
  /-- A host access outside the block's register map, raised by a step: another device's (R51, R54). Safe. -/
  | outsideRegisterMap
  /-- An initialisation nibble on an 8-bit bus, raised by the meanings of the two nibble rows: they exist with
  "N = 4 only" (R78). Safe. -/
  | nibbleNeedsFourLines
  deriving DecidableEq, Repr

/-- The state steps 2 to 6 of R250 leave for a legal bus width. -/
def State.constructed (config : Config) (w : BusWidth) : State where
  config := config
  lines := { outputs := true, rs := false, e := false, d := List.replicate w.lines false }
  fs := match w with
    | .four => 0x20
    | .eight => 0x30
  dc := 0x0C
  dm := 0x06
  status := { busy := false, fault := false, initDone := false, rqPart := false }
  errcode := 0x00
  errinfo := 0x00
  seq := []
  curop := 0x00
  rq := []
  tr := []
  draws := 0
  host := []
  answers := []

/-- The machine right after reset: a block constructed with N = 4 and the default parameters (R250; assumption 3). -/
def State.reset : State :=
  State.constructed (Config.ardt 4) .four

end Sys2Proof.Machine
end

