-- ==== Sys2Proof/Machine/Flags.lean ====
section
/-! DEFINITION. The flags: the command registers' flag primitive (40_command_registers.md R100), the flags of FS, DC
and DM (R101), and the STATUS byte (10_state.md R27). -/

namespace Sys2Proof.Machine

/-- `SetFlag(REG, mask, enabled)` of R100: the new value of the register. -/
def setFlag (reg mask : Byte) (enabled : Bool) : Byte :=
  if enabled then reg ||| mask else reg &&& ~~~mask

/-- FS: 8-bit-bus (R23). -/
def flagEightBit : Byte := 0x10
/-- FS: 2-line (R23). -/
def flagTwoLine : Byte := 0x08
/-- FS: 5x11-font (R23). -/
def flagTallFont : Byte := 0x04
/-- DC: display-on (R24). -/
def flagDisplayOn : Byte := 0x04
/-- DC: cursor-on (R24). -/
def flagCursorOn : Byte := 0x02
/-- DC: blink-on (R24). -/
def flagBlinkOn : Byte := 0x01
/-- DM: entry-left (R25). -/
def flagEntryLeft : Byte := 0x02
/-- DM: entry-shift (R25). -/
def flagEntryShift : Byte := 0x01

/-- STATUS as the host reads it: bit 0 BUSY, bit 1 FAULT, bit 2 INITDONE, bit 3 RQPART; bits 7:4 read 0 (R27). -/
def Status.toByte (s : Status) : Byte :=
  0b0000#4 ++ BitVec.ofBool s.rqPart ++ BitVec.ofBool s.initDone ++ BitVec.ofBool s.fault ++ BitVec.ofBool s.busy

end Sys2Proof.Machine
end

