-- ==== Sys2Proof/Syntax.lean ====
section
/-! DEFINITION. The instructions: one constructor per row of opcode_table.json, the 15 host requests (30_encoding.md
R72) and the 10 classes of bus traffic the block emits (R75 to R78). -/

namespace Sys2Proof

/-- The request opcodes of R72. -/
inductive Opcode where
  | init | clear | home | move | print | cglyph | sglyph
  | setbw | setlines | setfont | setdisp | setcurs | setblink | setdir | setshift
  deriving DecidableEq, Repr

/-- The instructions. A request carries its operand bytes as the host wrote them, legal or not: their validation is
the block's (R74). A row of bus traffic carries the fields of its bit pattern (R76, R77). -/
inductive Instr where
  | init (columns rows : Byte)
  | clear
  | home
  | move (column row : Byte)
  | print (text : List Byte)
  | cglyph (idx p0 p1 p2 p3 p4 p5 p6 p7 : Byte)
  | sglyph (idx : Byte)
  | setbw (w : Byte)
  | setlines (n : Byte)
  | setfont (f : Byte)
  | setdisp (b : Byte)
  | setcurs (b : Byte)
  | setblink (b : Byte)
  | setdir (b : Byte)
  | setshift (b : Byte)
  | wClearDisplay
  | wReturnHome
  | wDisplayMode (entryLeft entryShift : Bool)
  | wDisplayControl (displayOn cursorOn blinkOn : Bool)
  | wFunctionSet (eightBit twoLine tallFont : Bool)
  | wCgramAddr (i : BitVec 3)
  | wDdramAddr (row : Bool) (column : BitVec 6)
  | wData (d : Byte)
  | wInitNibble3
  | wInitNibble2
  deriving DecidableEq, Repr

/-- The words of an instruction. The two encodings of 30_encoding.md do not share a word space: a request is a
sequence of bytes written to REQ (R70), a row of bus traffic is one byte write WIRE-B with its register-select level,
or one lone nibble WIRE-T4 (R75). -/
inductive Encoding where
  | request (bytes : List Byte)
  | wireByte (rs : Bool) (b : Byte)
  | wireNibble (rs : Bool) (v : Nibble)
  deriving DecidableEq, Repr

/-- Why the bytes in the request buffer, or the traffic on the bus, are no instruction. -/
inductive Reject where
  /-- Bytes are missing (R71): the block waits for them. -/
  | incomplete
  /-- The first byte is a reserved opcode (R73). -/
  | reserved (op : Byte)
  /-- Bytes follow the instruction. -/
  | trailing (rest : List Byte)
  /-- A command byte, or a lone nibble, that the block never emits (R79). -/
  | neverEmitted
  deriving DecidableEq, Repr

/-- What the bytes at the front of the request stream are (R71, R73). -/
inductive RequestParse where
  | incomplete
  | reserved (op : Byte)
  | complete (i : Instr) (rest : List Byte)
  deriving DecidableEq, Repr

/-- One row of opcode_table.json: its mnemonic, and the bits that every word of the row has. -/
structure TableRow where
  mnemonic : String
  mask : Byte
  pattern : Byte
  deriving DecidableEq, Repr

end Sys2Proof
end

