-- ==== Sys2Proof/WellFormed.lean ====
section
/-! DEFINITION. Which instructions have an encoding. Operand values are not checked here: every operand byte is
encodable, and the block validates it (30_encoding.md R74, R80). -/

namespace Sys2Proof

/-- An instruction that can be written as words: a PRINT carries at most 255 bytes (R70: len ∈ 0..255). The types
of `Instr` already bound every other operand. -/
def Instr.wellFormed : Instr → Bool
  | .print text => text.length ≤ 255
  | .init _ _ | .clear | .home | .move _ _ | .cglyph _ _ _ _ _ _ _ _ _ | .sglyph _ => true
  | .setbw _ | .setlines _ | .setfont _ => true
  | .setdisp _ | .setcurs _ | .setblink _ | .setdir _ | .setshift _ => true
  | .wClearDisplay | .wReturnHome | .wDisplayMode _ _ | .wDisplayControl _ _ _ | .wFunctionSet _ _ _ => true
  | .wCgramAddr _ | .wDdramAddr _ _ | .wData _ | .wInitNibble3 | .wInitNibble2 => true

end Sys2Proof
end

