-- ==== Sys2Proof/Decode.lean ====
section
/-! DEFINITION. The two encodings of 30_encoding.md, read (decode) and written (encode): the request stream (R70 to
R74) and the bus traffic (R75 to R79). -/

namespace Sys2Proof

/-! ## Requests -/

/-- The opcode byte of a request (R72). -/
def Opcode.code : Opcode → Byte
  | .init => 0x01
  | .clear => 0x02
  | .home => 0x03
  | .move => 0x04
  | .print => 0x05
  | .cglyph => 0x06
  | .sglyph => 0x07
  | .setbw => 0x10
  | .setlines => 0x11
  | .setfont => 0x12
  | .setdisp => 0x13
  | .setcurs => 0x14
  | .setblink => 0x15
  | .setdir => 0x16
  | .setshift => 0x17

/-- Every assigned opcode, in the order of R72. -/
def Opcode.all : List Opcode :=
  [.init, .clear, .home, .move, .print, .cglyph, .sglyph,
   .setbw, .setlines, .setfont, .setdisp, .setcurs, .setblink, .setdir, .setshift]

/-- The opcode a byte assigns, if it is not reserved (R72, R73). -/
def Opcode.ofByte (b : Byte) : Option Opcode :=
  Opcode.all.find? fun o => o.code == b

/-- `Len(op, b1)` of R71. Only PRINT looks at the second byte. -/
def Opcode.length (o : Opcode) (b1 : Byte) : Nat :=
  match o with
  | .clear | .home => 1
  | .sglyph | .setbw | .setlines | .setfont | .setdisp | .setcurs | .setblink | .setdir | .setshift => 2
  | .init | .move => 3
  | .cglyph => 10
  | .print => 2 + b1.toNat

/-- The instruction an opcode and the bytes after it make, in the formats of R70. -/
def Opcode.parse (o : Opcode) (operands : List Byte) : RequestParse :=
  match o with
  | .clear => .complete .clear operands
  | .home => .complete .home operands
  | .init =>
    match operands with
    | columns :: rows :: rest => .complete (.init columns rows) rest
    | _ => .incomplete
  | .move =>
    match operands with
    | column :: row :: rest => .complete (.move column row) rest
    | _ => .incomplete
  | .print =>
    match operands with
    | len :: rest =>
      if len.toNat ≤ rest.length then .complete (.print (rest.take len.toNat)) (rest.drop len.toNat)
      else .incomplete
    | [] => .incomplete
  | .cglyph =>
    match operands with
    | idx :: p0 :: p1 :: p2 :: p3 :: p4 :: p5 :: p6 :: p7 :: rest =>
      .complete (.cglyph idx p0 p1 p2 p3 p4 p5 p6 p7) rest
    | _ => .incomplete
  | .sglyph => one .sglyph
  | .setbw => one .setbw
  | .setlines => one .setlines
  | .setfont => one .setfont
  | .setdisp => one .setdisp
  | .setcurs => one .setcurs
  | .setblink => one .setblink
  | .setdir => one .setdir
  | .setshift => one .setshift
where
  /-- Format REQ1. -/
  one (i : Byte → Instr) : RequestParse :=
    match operands with
    | a :: rest => .complete (i a) rest
    | [] => .incomplete

/-- The request at the front of the request stream. It is total: the stream is incomplete (R71), its first byte is a
reserved opcode (R73), or it starts with a request. -/
def decodeRequest : List Byte → RequestParse
  | [] => .incomplete
  | op :: operands =>
    match Opcode.ofByte op with
    | none => .reserved op
    | some o => o.parse operands

/-! ## Bus traffic -/

/-- The command byte (RS = 0) on the bus, by the bit patterns of R76. Every byte R79 says the block never emits is
rejected. -/
def decodeWireCommand (b : Byte) : Option Instr :=
  if b = 0x01 then some .wClearDisplay
  else if b = 0x02 then some .wReturnHome
  else if b &&& 0xFC = 0x04 then some (.wDisplayMode (b.getLsbD 1) (b.getLsbD 0))
  else if b &&& 0xF8 = 0x08 then some (.wDisplayControl (b.getLsbD 2) (b.getLsbD 1) (b.getLsbD 0))
  else if b &&& 0xE3 = 0x20 then some (.wFunctionSet (b.getLsbD 4) (b.getLsbD 3) (b.getLsbD 2))
  else if b &&& 0xC7 = 0x40 then some (.wCgramAddr (b.extractLsb' 3 3))
  else if b &&& 0x80 = 0x80 then some (.wDdramAddr (b.getLsbD 6) (b.extractLsb' 0 6))
  else none

/-- A lone nibble on the bus (R78): RS is 0, and only 0x3 and 0x2 are sent so. -/
def decodeWireNibble (rs : Bool) (v : Nibble) : Option Instr :=
  if rs then none
  else if v = 0x3 then some .wInitNibble3
  else if v = 0x2 then some .wInitNibble2
  else none

/-- The instruction that words stand for, or the reason why they are none. -/
def decode : Encoding → Except Reject Instr
  | .request bytes =>
    match decodeRequest bytes with
    | .incomplete => .error .incomplete
    | .reserved op => .error (.reserved op)
    | .complete i [] => .ok i
    | .complete _ rest => .error (.trailing rest)
  | .wireByte true b => .ok (.wData b)
  | .wireByte false b => (decodeWireCommand b).elim (.error .neverEmitted) .ok
  | .wireNibble rs v => (decodeWireNibble rs v).elim (.error .neverEmitted) .ok

/-! ## Encoding -/

/-- A flag bit of a command byte: its mask if the flag is set (R83). -/
def flagBits (mask : Byte) (set : Bool) : Byte :=
  if set then mask else 0

/-- `FS byte` of R83. -/
def functionSetByte (eightBit twoLine tallFont : Bool) : Byte :=
  0x20 ||| flagBits 0x10 eightBit ||| flagBits 0x08 twoLine ||| flagBits 0x04 tallFont

/-- `DC byte` of R83. -/
def displayControlByte (displayOn cursorOn blinkOn : Bool) : Byte :=
  0x08 ||| flagBits 0x04 displayOn ||| flagBits 0x02 cursorOn ||| flagBits 0x01 blinkOn

/-- `DM byte` of R83. -/
def displayModeByte (entryLeft entryShift : Bool) : Byte :=
  0x04 ||| flagBits 0x02 entryLeft ||| flagBits 0x01 entryShift

/-- `CursorAddress byte` of R83: `0x80 + row*0x40 + column`. -/
def cursorAddressByte (column row : Byte) : Byte :=
  0x80 + row * 0x40 + column

/-- The default `CGRAM_CMD(i)` of R83: `0x40 OR (i << 3)`. -/
def cgramAddressByte (i : BitVec 3) : Byte :=
  0x40 ||| (i.zeroExtend 8 <<< 3)

/-- The words of an instruction (R70, R72, R76 to R78, R80). -/
def encode : Instr → Encoding
  | .init columns rows => .request [Opcode.init.code, columns, rows]
  | .clear => .request [Opcode.clear.code]
  | .home => .request [Opcode.home.code]
  | .move column row => .request [Opcode.move.code, column, row]
  | .print text => .request (Opcode.print.code :: BitVec.ofNat 8 text.length :: text)
  | .cglyph idx p0 p1 p2 p3 p4 p5 p6 p7 => .request [Opcode.cglyph.code, idx, p0, p1, p2, p3, p4, p5, p6, p7]
  | .sglyph idx => .request [Opcode.sglyph.code, idx]
  | .setbw w => .request [Opcode.setbw.code, w]
  | .setlines n => .request [Opcode.setlines.code, n]
  | .setfont f => .request [Opcode.setfont.code, f]
  | .setdisp b => .request [Opcode.setdisp.code, b]
  | .setcurs b => .request [Opcode.setcurs.code, b]
  | .setblink b => .request [Opcode.setblink.code, b]
  | .setdir b => .request [Opcode.setdir.code, b]
  | .setshift b => .request [Opcode.setshift.code, b]
  | .wClearDisplay => .wireByte false 0x01
  | .wReturnHome => .wireByte false 0x02
  | .wDisplayMode i s => .wireByte false (displayModeByte i s)
  | .wDisplayControl d c b => .wireByte false (displayControlByte d c b)
  | .wFunctionSet l t f => .wireByte false (functionSetByte l t f)
  | .wCgramAddr i => .wireByte false (cgramAddressByte i)
  | .wDdramAddr row column =>
    .wireByte false (cursorAddressByte (column.zeroExtend 8) ((BitVec.ofBool row).zeroExtend 8))
  | .wData d => .wireByte true d
  | .wInitNibble3 => .wireNibble false 0x3
  | .wInitNibble2 => .wireNibble false 0x2

/-- The bytes of a request; none for bus traffic, which no host writes (43_bus_framing.md, first paragraph). -/
def requestBytes (i : Instr) : Option (List Byte) :=
  match encode i with
  | .request bytes => some bytes
  | .wireByte _ _ | .wireNibble _ _ => none

/-! ## The opcode table -/

/-- The row of opcode_table.json an instruction belongs to. -/
def tableRow : Instr → TableRow
  | .init _ _ => ⟨"INIT", 0xFF, 0x01⟩
  | .clear => ⟨"CLEAR", 0xFF, 0x02⟩
  | .home => ⟨"HOME", 0xFF, 0x03⟩
  | .move _ _ => ⟨"MOVE", 0xFF, 0x04⟩
  | .print _ => ⟨"PRINT", 0xFF, 0x05⟩
  | .cglyph _ _ _ _ _ _ _ _ _ => ⟨"CGLYPH", 0xFF, 0x06⟩
  | .sglyph _ => ⟨"SGLYPH", 0xFF, 0x07⟩
  | .setbw _ => ⟨"SETBW", 0xFF, 0x10⟩
  | .setlines _ => ⟨"SETLINES", 0xFF, 0x11⟩
  | .setfont _ => ⟨"SETFONT", 0xFF, 0x12⟩
  | .setdisp _ => ⟨"SETDISP", 0xFF, 0x13⟩
  | .setcurs _ => ⟨"SETCURS", 0xFF, 0x14⟩
  | .setblink _ => ⟨"SETBLINK", 0xFF, 0x15⟩
  | .setdir _ => ⟨"SETDIR", 0xFF, 0x16⟩
  | .setshift _ => ⟨"SETSHIFT", 0xFF, 0x17⟩
  | .wClearDisplay => ⟨"W.CLEARDISPLAY", 0xFF, 0x01⟩
  | .wReturnHome => ⟨"W.RETURNHOME", 0xFF, 0x02⟩
  | .wDisplayMode _ _ => ⟨"W.DISPLAYMODE", 0xFC, 0x04⟩
  | .wDisplayControl _ _ _ => ⟨"W.DISPLAYCONTROL", 0xF8, 0x08⟩
  | .wFunctionSet _ _ _ => ⟨"W.FUNCTIONSET", 0xE3, 0x20⟩
  | .wCgramAddr _ => ⟨"W.CGRAMADDR", 0xC7, 0x40⟩
  | .wDdramAddr _ _ => ⟨"W.DDRAMADDR", 0x80, 0x80⟩
  | .wData _ => ⟨"W.DATA", 0x00, 0x00⟩
  | .wInitNibble3 => ⟨"W.INITNIBBLE3", 0x0F, 0x03⟩
  | .wInitNibble2 => ⟨"W.INITNIBBLE2", 0x0F, 0x02⟩

/-- The first word of an encoding, as the table numbers its bits. -/
def Encoding.firstWord : Encoding → Byte
  | .request bytes => bytes.headD 0
  | .wireByte _ b => b
  | .wireNibble _ v => v.zeroExtend 8

/-- The bytes of a table word: bits 7 to 0 are the first byte, bits 15 to 8 the second, and so on. Bits from `nbits`
up are 0, to the longest request's 257 bytes (R71). -/
def tableBytes (nbits w : Nat) : List Byte :=
  (List.range 257).map fun k => BitVec.ofNat 8 (w % 2 ^ nbits / 2 ^ (8 * k))

/-- The instruction of a table word. The table holds rows of two encodings under one numbering, and some words are
in a row of each: such a word is read as the request, the only one of the two a host can write. A word of fewer than
8 bits is a lone nibble. A one-byte word whose byte is no request opcode is read by the rows of bus traffic, in the
table's order (assumption 9). -/
def decodeTableWord (nbits w : Nat) : Option Instr :=
  if nbits < 8 then decodeWireNibble false (BitVec.ofNat 4 (w % 2 ^ nbits))
  else
    match decodeRequest (tableBytes nbits w) with
    | .complete i _ => some i
    | .incomplete => none
    | .reserved op =>
      if nbits = 8 then some ((decodeWireCommand op).getD (.wData op)) else none

end Sys2Proof
end

