-- ==== Sys2Proof/Machine/Operands.lean ====
section
/-! DEFINITION. The operand forms of the requests: what each operand byte may be and the error it raises otherwise
(30_encoding.md R74), in the check order of 60_exceptions.md R225. -/

namespace Sys2Proof.Machine

/-- The code ERRCODE holds for an error (R221). -/
def ConfigError.code : ConfigError → Byte
  | .badBusWidth => 0x01
  | .badLineCount => 0x02
  | .badFont => 0x03
  | .badRow => 0x04
  | .badColumn => 0x05
  | .badGlyphIndex => 0x06
  | .badBool => 0x07
  | .badOpcode => 0x08
  | .busWidthMismatch => 0x09

/-- A boolean operand: 0 is false, 1 is true (R105, D12). -/
def boolOperand (b : Byte) : Except ConfigError Bool :=
  if b = 0 then .ok false else if b = 1 then .ok true else .error .badBool

/-- A line count, as "there are two rows" (R103, R130). -/
def lineCountOperand (n : Byte) : Except ConfigError Bool :=
  if n = 1 then .ok false else if n = 2 then .ok true else .error .badLineCount

/-- A font code, as "the font is 5x11" (R104, D13). -/
def fontOperand (f : Byte) : Except ConfigError Bool :=
  if f = 0x08 then .ok false else if f = 0x0B then .ok true else .error .badFont

/-- A bus width, as "the width is 8": it must be one, and then it must be the block's own (R102, R225). -/
def busWidthOperand (n : BusWidth) (w : Byte) : Except ConfigError Bool :=
  if w = 4 then (if n = .four then .ok false else .error .busWidthMismatch)
  else if w = 8 then (if n = .eight then .ok true else .error .busWidthMismatch)
  else .error .badBusWidth

/-- `CursorAddress(column, row)` of R110: the row is checked before the column. -/
def cursorAddress (column row : Byte) : Except ConfigError Byte :=
  if row = 0 ∨ row = 1 then
    if column ≤ 0x3F then .ok (cursorAddressByte column row) else .error .badColumn
  else .error .badRow

/-- A glyph index, 0 to 7 (R154, R155, D11). -/
def glyphIndexOperand (idx : Byte) : Except ConfigError (Fin 8) :=
  if h : idx.toNat < 8 then .ok ⟨idx.toNat, h⟩ else .error .badGlyphIndex

end Sys2Proof.Machine
end

