-- ==== Sys2Proof/Machine/Ops.lean ====
section
/-! DEFINITION. The shared operations: the bus procedures (43_bus_framing.md), performing an event, completion,
acceptance and emission (10_state.md R30 to R33), taking the configuration error and leaving it by reset
(60_exceptions.md R223, R224; 70_reset_and_hazards.md R250), and the host register map (20_memory.md R51). -/

namespace Sys2Proof.Machine

/-- What a step or a meaning answers. -/
abbrev Result := Host.Outcome State Fault Refusal

/-! ## Bus procedures -/

/-- `b[7:4]` (R6). -/
def highNibble (b : Byte) : Nibble := b.extractLsb' 4 4

/-- `b[3:0]` (R6). -/
def lowNibble (b : Byte) : Nibble := b.extractLsb' 0 4

/-- The data-line drives of a transfer: D[i] takes bit i, D[0] first (R55, R182, D22). -/
def dataDrives {n : Nat} (v : BitVec n) : List BusEvent :=
  (List.range n).map fun i => .drive (.d i) (v.getLsbD i)

/-- The enable pulse of a transfer, low, high, low, with its settle wait (R182). -/
def enablePulse (c : Config) : List BusEvent :=
  [.drive .e false, .wait c.tEnLow, .drive .e true, .wait c.tEnHigh, .drive .e false, .wait c.tSettle]

/-- `Transfer(v)` of R182. -/
def transfer (c : Config) {n : Nat} (v : BitVec n) : List BusEvent :=
  dataDrives v ++ enablePulse c

/-- `WriteByte(rs, b)` of R185: the high nibble first when N = 4 (R56). -/
def writeByte (c : Config) (w : BusWidth) (rs : Bool) (b : Byte) : List BusEvent :=
  .drive .rs rs ::
    match w with
    | .four => transfer c (highNibble b) ++ transfer c (lowNibble b)
    | .eight => transfer c b

/-- `WriteCommand(b)` of R186. -/
def writeCommand (c : Config) (w : BusWidth) (b : Byte) : List BusEvent := writeByte c w false b

/-- `WriteData(b)` of R186. -/
def writeData (c : Config) (w : BusWidth) (b : Byte) : List BusEvent := writeByte c w true b

/-! ## Lines and events -/

/-- `Drive(L, v)` of R180. No line D[i] exists from i = N on. -/
def Lines.drive (l : Lines) (line : Line) (level : Bool) : Lines :=
  match line with
  | .rs => { l with rs := level }
  | .e => { l with e := level }
  | .d i => { l with d := l.d.set i level }

/-- What an event does to the lines: a Wait changes none (R33, R181). -/
def Lines.apply (l : Lines) (event : BusEvent) : Lines :=
  match event with
  | .drive line level => l.drive line level
  | .wait _ => l

/-- What a list of events, performed in order, does to the lines. -/
def Lines.applyAll (l : Lines) (events : List BusEvent) : Lines := events.foldl Lines.apply l

/-- The lower bound of an event's duration: 0 for a Drive, t for a Wait(t) (R33). -/
def BusEvent.minTime (event : BusEvent) : Nat :=
  match event with
  | .drive _ _ => 0
  | .wait t => t

/-- The duration of an event: its draw, stretched to the event's lower bound (R33, D20). No step reads it
(assumption 4). -/
noncomputable def Performed.duration (p : Performed) : ℝ := max (p.event.minTime : ℝ) (Config.draw p.draw)

/-- Performs one event: the lines take their levels and the trace grows by the event and the next draw (R33). -/
def State.perform (s : State) (event : BusEvent) : State :=
  { s with
    lines := s.lines.apply event
    tr := s.tr ++ [{ event := event, draw := s.draws }]
    draws := s.draws + 1 }

/-- Completion of the current request (R30, R134): BUSY is cleared, and INITDONE is set if the request was INIT. -/
def State.complete (s : State) : State :=
  { s with
    status := { s.status with busy := false, initDone := s.status.initDone || s.curop == Opcode.init.code } }

/-- A block step (R33): it performs the head event of SEQ, and completes the request with the last one (R30). With
SEQ empty the block is idle, and nothing changes. -/
def State.blockStep (s : State) : State :=
  match s.seq with
  | [] => s
  | [event] => { (s.perform event) with seq := [] }.complete
  | event :: next :: rest => { (s.perform event) with seq := next :: rest }

/-! ## Acceptance and emission -/

/-- Acceptance of a valid request (R31), after its register updates: `events` is its event list. -/
def State.accept (s : State) (op : Opcode) (events : List BusEvent) : State :=
  let taken := { s with rq := [], curop := op.code, status := { s.status with rqPart := false } }
  match events with
  | [] => taken.complete
  | _ :: _ => { taken with seq := events, status := { taken.status with busy := true } }

/-- Appends a row of bus traffic to the pending event list (R7 `emit`), which makes the block busy (R27). -/
def State.emit (s : State) (events : List BusEvent) : State :=
  { s with seq := s.seq ++ events, status := { s.status with busy := true } }

/-! ## The configuration error -/

/-- `raise ConfigError(code)`: fault entry (R223). `opcode` is that of the faulting request, 0x00 at reset. -/
def State.raise (s : State) (error : ConfigError) (opcode : Byte) : State :=
  { s with
    status := { s.status with fault := true, rqPart := false }
    errcode := error.code
    errinfo := opcode
    rq := [] }

/-- Construction of the block (R250). With N outside {4, 8} reset stops at its first step, the fault of R231: no line
is configured or driven and no shadow register is set: only their hardwired bits are known (R23 to R25; assumption 6). -/
def State.construct (config : Config) : State :=
  match config.width? with
  | some w => State.constructed config w
  | none =>
    { config := config
      lines :=
        { outputs := false
          rs := Config.undriven 0
          e := Config.undriven 1
          d := (List.range config.n).map fun i => Config.undriven (i + 2) }
      fs := 0x20 ||| (Config.unsetFS &&& 0x1C)
      dc := 0x08 ||| (Config.unsetDC &&& 0x07)
      dm := 0x04 ||| (Config.unsetDM &&& 0x03)
      status := { busy := false, fault := false, initDone := false, rqPart := false }
      errcode := 0x00
      errinfo := 0x00
      seq := []
      curop := 0x00
      rq := []
      tr := []
      draws := 0
      host := []
      answers := [] : State }.raise .badBusWidth 0x00

/-- Reset, the one way out of a fault (R224): the block is constructed again. What the host still does and what it
has read are its own, and the draws go on. -/
def State.rebuild (s : State) : State :=
  { State.construct s.config with host := s.host, answers := s.answers, draws := s.draws }

/-! ## Running a request or a row of bus traffic -/

/-- Runs a request (R31, R32). A faulted block discards it (R224); a busy one has no such step (R259, I37). Otherwise
`plan` validates it for the bus width: it gives the error, and fault entry is all that happens (R222), or the state
with the register updates done and the event list. A block without a legal width is faulted since its reset (R231). -/
def State.request (s : State) (op : Opcode) (plan : BusWidth → Except ConfigError (State × List BusEvent)) : Result :=
  if s.status.fault then .next s
  else if s.status.busy then .refused .requestWhileBusy
  else
    match s.config.width? with
    | none => .next s
    | some w =>
      match plan w with
      | .error error => .next (s.raise error op.code)
      | .ok (updated, events) => .next (updated.accept op events)

/-- Puts a row of bus traffic on the bus, as the block does inside a request (43_bus_framing.md). A faulted block
emits nothing (R223, R224). -/
def State.traffic (s : State) (events : BusWidth → Except Refusal (List BusEvent)) : Result :=
  if s.status.fault then .next s
  else
    match s.config.width? with
    | none => .next s
    | some w =>
      match events w with
      | .error reason => .refused reason
      | .ok list => .next (s.emit list)

/-- A row WIRE-B: one byte write (R75, R185). -/
def State.wireByte (s : State) (rs : Bool) (b : Byte) : Result :=
  s.traffic fun w => .ok (writeByte s.config w rs b)

/-- A row WIRE-T4 with RS = 0: one lone nibble (R78), N = 4 only. RS is driven low first only if it would not be low
already when the pending events are performed (assumption 10). -/
def State.wireNibble (s : State) (v : Nibble) : Result :=
  s.traffic fun w =>
    match w with
    | .eight => .error .nibbleNeedsFourLines
    | .four =>
      .ok ((if (s.lines.applyAll s.seq).rs then [.drive .rs false] else []) ++ transfer s.config v)

/-! ## The host register map -/

/-- The value a host read of an offset returns (R51). The read changes nothing. -/
def State.readRegister (s : State) (offset : Byte) : Byte :=
  if offset = 0x01 then s.status.toByte
  else if offset = 0x02 then s.errcode
  else if offset = 0x03 then s.errinfo
  else if offset = 0x04 then s.fs
  else if offset = 0x05 then s.dc
  else if offset = 0x06 then s.dm
  else if offset = 0x07 then BitVec.ofNat 8 s.config.n
  else 0x00

/-- The offset a host address selects, if it is one of the 256 of the register map (R51, R54). -/
def registerOffset (c : Config) (address : Nat) : Option Byte :=
  if c.regBase ≤ address ∧ address < c.regBase + 256 then some (BitVec.ofNat 8 (address - c.regBase)) else none

end Sys2Proof.Machine
end

