-- ==== Sys2Proof/Machine/CommandRegisters.lean ====
section
/-! DEFINITION. The meanings of the setters (40_command_registers.md R102 to R109). None emits a bus event (R111). -/

namespace Sys2Proof.Machine

/-- A request that sets one flag of FS and emits nothing (R100, R111). -/
def State.setFS (s : State) (op : Opcode) (mask : Byte) (check : BusWidth → Except ConfigError Bool) : Result :=
  s.request op fun w => (check w).map fun enabled => ({ s with fs := setFlag s.fs mask enabled }, [])

/-- A request that sets one flag of DC and emits nothing (R100, R111). -/
def State.setDC (s : State) (op : Opcode) (mask : Byte) (check : Except ConfigError Bool) : Result :=
  s.request op fun _ => check.map fun enabled => ({ s with dc := setFlag s.dc mask enabled }, [])

/-- A request that sets one flag of DM and emits nothing (R100, R111). -/
def State.setDM (s : State) (op : Opcode) (mask : Byte) (check : Except ConfigError Bool) : Result :=
  s.request op fun _ => check.map fun enabled => ({ s with dm := setFlag s.dm mask enabled }, [])

/-- SETBW (R102). -/
def execSetbw (w : Byte) (s : State) : Result := s.setFS .setbw flagEightBit fun n => busWidthOperand n w

/-- SETLINES (R103). -/
def execSetlines (n : Byte) (s : State) : Result := s.setFS .setlines flagTwoLine fun _ => lineCountOperand n

/-- SETFONT (R104). -/
def execSetfont (f : Byte) (s : State) : Result := s.setFS .setfont flagTallFont fun _ => fontOperand f

/-- SETDISP (R105). -/
def execSetdisp (b : Byte) (s : State) : Result := s.setDC .setdisp flagDisplayOn (boolOperand b)

/-- SETCURS (R106). -/
def execSetcurs (b : Byte) (s : State) : Result := s.setDC .setcurs flagCursorOn (boolOperand b)

/-- SETBLINK (R107). -/
def execSetblink (b : Byte) (s : State) : Result := s.setDC .setblink flagBlinkOn (boolOperand b)

/-- SETDIR (R108). -/
def execSetdir (b : Byte) (s : State) : Result := s.setDM .setdir flagEntryLeft (boolOperand b)

/-- SETSHIFT (R109). -/
def execSetshift (b : Byte) (s : State) : Result := s.setDM .setshift flagEntryShift (boolOperand b)

end Sys2Proof.Machine
end

