-- ==== Sys2Proof/Machine/Display.lean ====
section
/-! DEFINITION. The meanings of the display operations (42_display_operations.md). None changes FS, DC or DM. -/

namespace Sys2Proof.Machine

/-- CLEAR's event list (R150). -/
def clearEvents (c : Config) (w : BusWidth) : List BusEvent := writeCommand c w 0x01 ++ [.wait c.tClear]

/-- HOME's event list (R151). -/
def homeEvents (c : Config) (w : BusWidth) : List BusEvent := writeCommand c w 0x02 ++ [.wait c.tHome]

/-- PRINT's event list (R153): one data byte for each byte of the text, in order. -/
def printEvents (c : Config) (w : BusWidth) (text : List Byte) : List BusEvent := text.flatMap (writeData c w)

/-- CGLYPH's event list (R154): the address command, then the rows as data, unchanged and in order (D26, D31). -/
def cglyphEvents (c : Config) (w : BusWidth) (i : Fin 8) (rows : List Byte) : List BusEvent :=
  writeCommand c w c.cgramCmd[i] ++ rows.flatMap (writeData c w)

/-- CLEAR (R150). -/
def execClear (s : State) : Result := s.request .clear fun w => .ok (s, clearEvents s.config w)

/-- HOME (R151). -/
def execHome (s : State) : Result := s.request .home fun w => .ok (s, homeEvents s.config w)

/-- MOVE (R152). -/
def execMove (column row : Byte) (s : State) : Result :=
  s.request .move fun w => (cursorAddress column row).map fun address => (s, writeCommand s.config w address)

/-- PRINT (R153). -/
def execPrint (text : List Byte) (s : State) : Result :=
  s.request .print fun w => .ok (s, printEvents s.config w text)

/-- CGLYPH (R154). -/
def execCglyph (idx p0 p1 p2 p3 p4 p5 p6 p7 : Byte) (s : State) : Result :=
  s.request .cglyph fun w => (glyphIndexOperand idx).map fun i =>
    (s, cglyphEvents s.config w i [p0, p1, p2, p3, p4, p5, p6, p7])

/-- SGLYPH (R155). -/
def execSglyph (idx : Byte) (s : State) : Result :=
  s.request .sglyph fun w => (glyphIndexOperand idx).map fun _ => (s, writeData s.config w idx)

end Sys2Proof.Machine
end

