-- ==== Sys2Proof/Machine/Initialization.lean ====
section
/-! DEFINITION. The meaning of INIT, the power-on initialisation (41_initialization.md). -/

namespace Sys2Proof.Machine

/-- INIT's event list when N = 4 (R132), for the shadow values after its register update. -/
def initEventsFour (c : Config) (fs dc dm : Byte) : List BusEvent :=
  [.drive .rs false]
    ++ (transfer c (0x3 : Nibble) ++ [.wait c.tInitA])
    ++ (transfer c (0x3 : Nibble) ++ [.wait c.tInitB])
    ++ (transfer c (0x3 : Nibble) ++ [.wait c.tInitC])
    ++ transfer c (0x2 : Nibble)
    ++ writeCommand c .four fs
    ++ writeCommand c .four dc
    ++ writeCommand c .four dm

/-- INIT's event list when N = 8 (R133, D6). -/
def initEventsEight (c : Config) (fs dc dm : Byte) : List BusEvent :=
  (writeCommand c .eight fs ++ [.wait c.tInitA])
    ++ (writeCommand c .eight fs ++ [.wait c.tInitC])
    ++ writeCommand c .eight fs
    ++ writeCommand c .eight fs
    ++ writeCommand c .eight dc
    ++ writeCommand c .eight dm

/-- INIT's event list (R130). -/
def initEvents (c : Config) (w : BusWidth) (fs dc dm : Byte) : List BusEvent :=
  match w with
  | .four => initEventsFour c fs dc dm
  | .eight => initEventsEight c fs dc dm

/-- INIT (R130, R131). `columns` is not checked and not used (D8). -/
def execInit (_columns rows : Byte) (s : State) : Result :=
  s.request .init fun w => (lineCountOperand rows).map fun twoRows =>
    let fs := setFlag s.fs flagTwoLine twoRows
    ({ s with fs := fs }, initEvents s.config w fs s.dc s.dm)

end Sys2Proof.Machine
end

