-- ==== Sys2Proof/Machine/Wire.lean ====
section
/-! DEFINITION. The meanings of the rows of bus traffic (30_encoding.md R75 to R78): what the block drives for one
command byte, one data byte or one initialisation nibble. They are the block's micro-operations: no host request
reaches them directly, every request's event list is made of them and of waits (43_bus_framing.md). -/

namespace Sys2Proof.Machine

/-- W.CLEARDISPLAY (R76). -/
def execWClearDisplay (s : State) : Result := s.wireByte false 0x01

/-- W.RETURNHOME (R76). -/
def execWReturnHome (s : State) : Result := s.wireByte false 0x02

/-- W.DISPLAYMODE (R76, R83). -/
def execWDisplayMode (entryLeft entryShift : Bool) (s : State) : Result :=
  s.wireByte false (displayModeByte entryLeft entryShift)

/-- W.DISPLAYCONTROL (R76, R83). -/
def execWDisplayControl (displayOn cursorOn blinkOn : Bool) (s : State) : Result :=
  s.wireByte false (displayControlByte displayOn cursorOn blinkOn)

/-- W.FUNCTIONSET (R76, R83). -/
def execWFunctionSet (eightBit twoLine tallFont : Bool) (s : State) : Result :=
  s.wireByte false (functionSetByte eightBit twoLine tallFont)

/-- W.CGRAMADDR (R76): the byte is the parameter `CGRAM_CMD(i)` (R5, D27). -/
def execWCgramAddr (i : BitVec 3) (s : State) : Result := s.wireByte false s.config.cgramCmd[i.toFin]

/-- W.DDRAMADDR (R76, R83). -/
def execWDdramAddr (row : Bool) (column : BitVec 6) (s : State) : Result :=
  s.wireByte false (cursorAddressByte (column.zeroExtend 8) ((BitVec.ofBool row).zeroExtend 8))

/-- W.DATA (R77). -/
def execWData (d : Byte) (s : State) : Result := s.wireByte true d

/-- W.INITNIBBLE3 (R78). -/
def execWInitNibble3 (s : State) : Result := s.wireNibble 0x3

/-- W.INITNIBBLE2 (R78). -/
def execWInitNibble2 (s : State) : Result := s.wireNibble 0x2

end Sys2Proof.Machine
end

