-- ==== Sys2Proof/Machine/Dispatch.lean ====
section
/-! DEFINITION. One arm per instruction. -/

namespace Sys2Proof.Machine

def exec (i : Instr) (s : State) : Host.Outcome State Fault Refusal :=
  match i with
  | .init columns rows => Sys2Proof.Machine.execInit columns rows s
  | .clear => Sys2Proof.Machine.execClear s
  | .home => Sys2Proof.Machine.execHome s
  | .move column row => Sys2Proof.Machine.execMove column row s
  | .print text => Sys2Proof.Machine.execPrint text s
  | .cglyph idx p0 p1 p2 p3 p4 p5 p6 p7 => Sys2Proof.Machine.execCglyph idx p0 p1 p2 p3 p4 p5 p6 p7 s
  | .sglyph idx => Sys2Proof.Machine.execSglyph idx s
  | .setbw w => Sys2Proof.Machine.execSetbw w s
  | .setlines n => Sys2Proof.Machine.execSetlines n s
  | .setfont f => Sys2Proof.Machine.execSetfont f s
  | .setdisp b => Sys2Proof.Machine.execSetdisp b s
  | .setcurs b => Sys2Proof.Machine.execSetcurs b s
  | .setblink b => Sys2Proof.Machine.execSetblink b s
  | .setdir b => Sys2Proof.Machine.execSetdir b s
  | .setshift b => Sys2Proof.Machine.execSetshift b s
  | .wClearDisplay => Sys2Proof.Machine.execWClearDisplay s
  | .wReturnHome => Sys2Proof.Machine.execWReturnHome s
  | .wDisplayMode entryLeft entryShift => Sys2Proof.Machine.execWDisplayMode entryLeft entryShift s
  | .wDisplayControl displayOn cursorOn blinkOn => Sys2Proof.Machine.execWDisplayControl displayOn cursorOn blinkOn s
  | .wFunctionSet eightBit twoLine tallFont => Sys2Proof.Machine.execWFunctionSet eightBit twoLine tallFont s
  | .wCgramAddr index => Sys2Proof.Machine.execWCgramAddr index s
  | .wDdramAddr row column => Sys2Proof.Machine.execWDdramAddr row column s
  | .wData d => Sys2Proof.Machine.execWData d s
  | .wInitNibble3 => Sys2Proof.Machine.execWInitNibble3 s
  | .wInitNibble2 => Sys2Proof.Machine.execWInitNibble2 s

end Sys2Proof.Machine
end

