-- ==== Sys2Proof/Machine/Fetch.lean ====
section
/-! DEFINITION. How an instruction reaches the block: the REQ port and the rest of the host's accesses (10_state.md
R32, 20_memory.md R51), and the choice of what happens next. -/

namespace Sys2Proof.Machine

/-- A byte written to REQ (R32). A faulted block discards it. A busy block does not take it: `hostStep` holds it.
Otherwise it joins RQ, which is then a part of a request, begins with a reserved opcode (R73), or is complete and
runs (R31). -/
def State.writeReq (s : State) (b : Byte) : Result :=
  if s.status.fault then .next s
  else if s.status.busy then .refused .requestWhileBusy
  else
    let t := { s with rq := s.rq ++ [b] }
    match decodeRequest t.rq with
    | .incomplete => .next { t with status := { t.status with rqPart := true } }
    | .reserved op => .next (t.raise .badOpcode op)
    | .complete i _ => exec i t

/-- A REQ write is held while BUSY = 1 (R32, R259, D33). -/
def State.holdsWrite (s : State) : Bool := !s.status.fault && s.status.busy

/-- What the outside world's next action does, given that it is `action` and that `rest` follows it. -/
def State.hostStep (s : State) (action : HostAction) (rest : List HostAction) : Result :=
  let t := { s with host := rest }
  match action with
  | .pass => .next t.blockStep
  | .read address =>
    match registerOffset s.config address with
    | none => .refused .outsideRegisterMap
    | some offset => .next { t with answers := t.answers ++ [t.readRegister offset] }
  | .write address b =>
    match registerOffset s.config address with
    | none => .refused .outsideRegisterMap
    | some offset =>
      if offset = 0x00 then
        if s.holdsWrite then .next s.blockStep else t.writeReq b
      else .next t
  | .reset => .next t.rebuild
  | .secondAgentWrite _ _ => .refused .secondAgent
  | .foreignDrive _ _ => .fault .foreignDrive

/-- One step: the outside world's next action if it has one, else a block step. While a REQ write is held the block
goes on stepping (assumption 7). -/
def State.nextStep (s : State) : Result :=
  match s.host with
  | [] => .next s.blockStep
  | action :: rest => s.hostStep action rest

/-- A state in which the next step runs the instruction of a table word. A request: all its bytes but the last are in
RQ and the host writes the last one to REQ next. A row of bus traffic, which no host writes: its events are in SEQ
and the next step performs the first one. A word that is no instruction: the host writes its first byte
(assumption 8). -/
def State.placeWord (s : State) (nbits w : Nat) : State :=
  let idle := { s with seq := [], status := { s.status with busy := false, fault := false } }
  let port := s.config.regBase
  match decodeTableWord nbits w with
  | none =>
    { idle with
      rq := []
      status := { idle.status with rqPart := false }
      host := .write port (BitVec.ofNat 8 w) :: s.host }
  | some i =>
    match requestBytes i with
    | some bytes =>
      { idle with
        rq := bytes.dropLast
        status := { idle.status with rqPart := !bytes.dropLast.isEmpty }
        host := .write port (bytes.getLastD 0) :: s.host }
    | none =>
      match exec i idle with
      | .next t => { t with host := .pass :: s.host }
      | .fault _ => idle
      | .refused _ => idle

end Sys2Proof.Machine
end

