-- ==== Sys2Proof/Machine/Step.lean ====
section
/-! DEFINITION. One step of the machine. -/

namespace Sys2Proof.Machine

/-- One step (10_state.md R32, R33): see `State.nextStep`. -/
def step (s : State) : Host.Outcome State Fault Refusal :=
  s.nextStep

/-- `s` with a table word where the next step fetches its instruction: see `State.placeWord`. -/
def State.withFetchWord (s : State) (nbits w : Nat) : State :=
  s.placeWord nbits w

end Sys2Proof.Machine
end

