-- ==== Sys2Proof/Machine/Assembler.lean ====
section
/-! DEFINITION. The assembler syntax of the requests (30_encoding.md R80) and the pseudo-instructions (R81). It is the
host's: the block sees the bytes only. Mnemonics and keywords are taken in the spelling of R80 (assumption 18). -/

namespace Sys2Proof.Machine

/-- Why a line does not assemble. -/
inductive AsmError where
  | unknownMnemonic
  | operandCount
  | badOperand
  /-- "An operand above 255 is an assembler error" (R80). -/
  | operandTooLarge
  | badText
  deriving DecidableEq, Repr

/-! ## Pseudo-instructions -/

/-- `PRINT` of a text of any length (R81): requests of 255 bytes, then one with the rest. `fuel` bounds their number. -/
def printRequestsFrom (fuel : Nat) (text : List Byte) : List Instr :=
  match fuel with
  | 0 => [.print text]
  | fuel + 1 =>
    if text.length ≤ 255 then [.print text]
    else .print (text.take 255) :: printRequestsFrom fuel (text.drop 255)

/-- `PRINT "<text>"` with any number of bytes (R81). -/
def printRequests (text : List Byte) : List Instr := printRequestsFrom text.length text

/-- `PUTC <c>` (R81). -/
def putc (c : Byte) : List Instr := [.print [c]]

/-- `DISPLAYCFG <d>, <c>, <b>` (R81). -/
def displayCfg (d c b : Byte) : List Instr := [.setdisp d, .setcurs c, .setblink b]

/-- `ENTRYCFG <dir>, <shift>` (R81). -/
def entryCfg (dir shift : Byte) : List Instr := [.setdir dir, .setshift shift]

/-- `FUNCCFG <n>, <font>` (R81). -/
def funcCfg (n font : Byte) : List Instr := [.setlines n, .setfont font]

/-! ## Text -/

/-- Drops a comment: what follows a `;` outside a string literal. -/
def stripComment (inText : Bool) : List Char → List Char
  | [] => []
  | '\\' :: c :: rest => '\\' :: c :: stripComment inText rest
  | c :: rest =>
    if c = ';' && !inText then []
    else c :: stripComment (if c = '"' then !inText else inText) rest

def isBlank (c : Char) : Bool := c = ' ' || c = '\t'

def trim (cs : List Char) : List Char :=
  ((cs.dropWhile isBlank).reverse.dropWhile isBlank).reverse

/-- Splits at the commas. -/
def splitCommas : List Char → List (List Char)
  | [] => [[]]
  | c :: rest =>
    match splitCommas rest with
    | [] => [[c]]
    | first :: others => if c = ',' then [] :: first :: others else (c :: first) :: others

/-- The value of a hexadecimal digit. -/
def hexDigit (c : Char) : Option Nat :=
  if '0' ≤ c ∧ c ≤ '9' then some (c.toNat - 0x30)
  else if 'a' ≤ c ∧ c ≤ 'f' then some (c.toNat - 0x61 + 10)
  else if 'A' ≤ c ∧ c ≤ 'F' then some (c.toNat - 0x41 + 10)
  else none

/-- The number that digits of a base stand for, if they all are digits of it. -/
def digitsValue (base : Nat) (cs : List Char) : Option Nat :=
  cs.foldl
    (fun acc c => acc.bind fun n => (hexDigit c).bind fun d => if d < base then some (n * base + d) else none)
    (some 0)

/-- A number, decimal or hexadecimal with `0x`. -/
def number (cs : List Char) : Option Nat :=
  match cs with
  | [] => none
  | '0' :: 'x' :: digits => if digits.isEmpty then none else digitsValue 16 digits
  | digits => digitsValue 10 digits

/-- A byte operand. -/
def byteOperand (cs : List Char) : Except AsmError Byte :=
  match number cs with
  | none => .error .badOperand
  | some n => if n ≤ 255 then .ok (BitVec.ofNat 8 n) else .error .operandTooLarge

/-- `on | off | <byte>`. -/
def switchOperand (cs : List Char) : Except AsmError Byte :=
  if cs = ['o', 'n'] then .ok 1 else if cs = ['o', 'f', 'f'] then .ok 0 else byteOperand cs

/-- `ltr | rtl | <byte>`. -/
def directionOperand (cs : List Char) : Except AsmError Byte :=
  if cs = ['l', 't', 'r'] then .ok 1 else if cs = ['r', 't', 'l'] then .ok 0 else byteOperand cs

/-- `5x8 | 5x11 | <byte>`. -/
def fontCodeOperand (cs : List Char) : Except AsmError Byte :=
  if cs = ['5', 'x', '8'] then .ok 0x08 else if cs = ['5', 'x', '1', '1'] then .ok 0x0B else byteOperand cs

/-- The bytes of a string literal, from after its opening quote. -/
def textBytes : List Char → Except AsmError (List Byte)
  | [] => .error .badText
  | ['"'] => .ok []
  | '\\' :: '\\' :: rest => (textBytes rest).map (0x5C :: ·)
  | '\\' :: '"' :: rest => (textBytes rest).map (0x22 :: ·)
  | '\\' :: 'x' :: a :: b :: rest =>
    match digitsValue 16 [a, b] with
    | some n => (textBytes rest).map (BitVec.ofNat 8 n :: ·)
    | none => .error .badText
  | c :: rest =>
    if c = '"' ∨ c = '\\' ∨ c.toNat ≥ 128 then .error .badText
    else (textBytes rest).map (BitVec.ofNat 8 c.toNat :: ·)

/-- A string literal. -/
def textOperand (cs : List Char) : Except AsmError (List Byte) :=
  match cs with
  | '"' :: rest => textBytes rest
  | _ => .error .badText

/-! ## Lines -/

/-- The requests of a mnemonic and its operands, each trimmed (R80, R81). -/
def assembleOperands (mnemonic : List Char) (operands : List (List Char)) : Except AsmError (List Instr) := do
  if mnemonic = ['I', 'N', 'I', 'T'] then
    match operands with
    | [c, r] => return [.init (← byteOperand c) (← byteOperand r)]
    | _ => throw .operandCount
  else if mnemonic = ['C', 'L', 'E', 'A', 'R'] then
    if operands = [[]] then return [.clear] else throw .operandCount
  else if mnemonic = ['H', 'O', 'M', 'E'] then
    if operands = [[]] then return [.home] else throw .operandCount
  else if mnemonic = ['M', 'O', 'V', 'E'] then
    match operands with
    | [c, r] => return [.move (← byteOperand c) (← byteOperand r)]
    | _ => throw .operandCount
  else if mnemonic = ['C', 'G', 'L', 'Y', 'P', 'H'] then
    match ← operands.mapM byteOperand with
    | [i, p0, p1, p2, p3, p4, p5, p6, p7] => return [.cglyph i p0 p1 p2 p3 p4 p5 p6 p7]
    | _ => throw .operandCount
  else if mnemonic = ['S', 'G', 'L', 'Y', 'P', 'H'] then one byteOperand fun a => [.sglyph a]
  else if mnemonic = ['S', 'E', 'T', 'B', 'W'] then one byteOperand fun a => [.setbw a]
  else if mnemonic = ['S', 'E', 'T', 'L', 'I', 'N', 'E', 'S'] then one byteOperand fun a => [.setlines a]
  else if mnemonic = ['S', 'E', 'T', 'F', 'O', 'N', 'T'] then one fontCodeOperand fun a => [.setfont a]
  else if mnemonic = ['S', 'E', 'T', 'D', 'I', 'S', 'P'] then one switchOperand fun a => [.setdisp a]
  else if mnemonic = ['S', 'E', 'T', 'C', 'U', 'R', 'S'] then one switchOperand fun a => [.setcurs a]
  else if mnemonic = ['S', 'E', 'T', 'B', 'L', 'I', 'N', 'K'] then one switchOperand fun a => [.setblink a]
  else if mnemonic = ['S', 'E', 'T', 'D', 'I', 'R'] then one directionOperand fun a => [.setdir a]
  else if mnemonic = ['S', 'E', 'T', 'S', 'H', 'I', 'F', 'T'] then one switchOperand fun a => [.setshift a]
  else if mnemonic = ['P', 'U', 'T', 'C'] then one byteOperand putc
  else if mnemonic = ['D', 'I', 'S', 'P', 'L', 'A', 'Y', 'C', 'F', 'G'] then
    match operands with
    | [d, c, b] => return displayCfg (← switchOperand d) (← switchOperand c) (← switchOperand b)
    | _ => throw .operandCount
  else if mnemonic = ['E', 'N', 'T', 'R', 'Y', 'C', 'F', 'G'] then
    match operands with
    | [d, s] => return entryCfg (← directionOperand d) (← switchOperand s)
    | _ => throw .operandCount
  else if mnemonic = ['F', 'U', 'N', 'C', 'C', 'F', 'G'] then
    match operands with
    | [n, f] => return funcCfg (← byteOperand n) (← fontCodeOperand f)
    | _ => throw .operandCount
  else throw .unknownMnemonic
where
  /-- A mnemonic with one operand. -/
  one (operand : List Char → Except AsmError Byte) (requests : Byte → List Instr) : Except AsmError (List Instr) :=
    match operands with
    | [a] => (operand a).map requests
    | _ => .error .operandCount

/-- The requests one line of the syntax of R80 stands for; none for a blank line. -/
def assembleLine (line : List Char) : Except AsmError (List Instr) :=
  let text := trim (stripComment false line)
  let mnemonic := text.takeWhile fun c => !isBlank c
  let operands := trim (text.drop mnemonic.length)
  if text.isEmpty then .ok []
  else if mnemonic = ['P', 'R', 'I', 'N', 'T'] then (textOperand operands).map printRequests
  else assembleOperands mnemonic ((splitCommas operands).map trim)

/-- The request bytes of a program, one line each (R80). -/
def assemble (lines : List (List Char)) : Except AsmError (List Byte) :=
  (lines.mapM assembleLine).map fun requests =>
    requests.flatten.flatMap fun i => (requestBytes i).getD []

end Sys2Proof.Machine
end

