-- ==== Sys2Proof/Machine/Trace.lean ====
section
/-! DEFINITION. What a list of bus events, performed in order, says: its transfers, its least duration and the gaps
between its enable pulses (41_initialization.md R138, 43_bus_framing.md R188, R190, 95_test_vectors.md notation). -/

namespace Sys2Proof.Machine

/-- The levels of the lines after a trace, from their levels before it (R36). -/
def Lines.replay (l : Lines) (trace : List Performed) : Lines := l.applyAll (trace.map Performed.event)

/-- An event makes a falling edge of E: the edge that latches (R182, R200). -/
def Lines.falls (l : Lines) (event : BusEvent) : Bool := l.e && !(l.apply event).e

/-- The transfer transcript: RS and the data lines at each falling edge of E, D[0] first (R188). -/
def transcript : Lines → List BusEvent → List (Bool × List Bool)
  | _, [] => []
  | l, event :: rest =>
    if l.falls event then (l.rs, l.d) :: transcript (l.apply event) rest
    else transcript (l.apply event) rest

/-- The sum of the lower bounds: the least duration of a list of events (R190, R260). -/
def minDuration (events : List BusEvent) : Nat := (events.map BusEvent.minTime).sum

/-- The least time between two pulses: from a falling edge of E to the next rising one, and to the next falling
one (R138). -/
structure PulseGap where
  toRise : Nat
  toFall : Nat
  deriving DecidableEq, Repr

/-- The gaps between successive pulses. `high` is the level of E, `since` the least time since the last falling edge,
if there was one, and `rise` what `since` was at the last rising edge. -/
def pulseGaps (high : Bool) (since : Option Nat) (rise : Nat) : List BusEvent → List PulseGap
  | [] => []
  | .wait t :: rest => pulseGaps high (since.map (· + t)) rise rest
  | .drive .e level :: rest =>
    if level = high then pulseGaps high since rise rest
    else if level then pulseGaps true since (since.getD 0) rest
    else
      match since with
      | none => pulseGaps false (some 0) 0 rest
      | some time => { toRise := rise, toFall := time } :: pulseGaps false (some 0) 0 rest
  | .drive .rs _ :: rest => pulseGaps high since rise rest
  | .drive (.d _) _ :: rest => pulseGaps high since rise rest

/-- The gaps between the successive transfers of a request that starts with E low. -/
def transferGaps (events : List BusEvent) : List PulseGap := pulseGaps false none 0 events

end Sys2Proof.Machine
end

