-- ==== Sys2Proof/Machine/Receiver.lean ====
section
/-! DEFINITION. The receiver reference of 47_receiver_reference.md, as an observer of the bus. It is no part of the
block and never changes its state: it is a function of the events the block performs. The spec marks almost all of it
as general knowledge, so all of it is PRESUMED (assumptions 19 to 22, 24 to 27), and its start state is any value (I7, I30). -/

namespace Sys2Proof.Machine

/-- Where the receiver's address counter points (R204). -/
inductive Pointer where
  | ddram (a : BitVec 7)
  | cgram (a : BitVec 6)
  deriving DecidableEq, Repr

/-- The receiving controller, as far as R200 to R207 describe it. -/
structure Receiver where
  /-- 8-bit mode; else 4-bit mode (R201). -/
  eightBit : Bool
  /-- In 4-bit mode, the high nibble latched first and its register-select level, if a low one is expected (R201). -/
  high : Option (Bool × Nibble)
  twoLine : Bool
  tallFont : Bool
  displayOn : Bool
  cursorOn : Bool
  blinkOn : Bool
  entryLeft : Bool
  entryShift : Bool
  pointer : Pointer
  /-- One byte for each of the 128 DDRAM addresses. -/
  ddram : List Byte
  /-- One byte for each of the 64 CGRAM addresses: glyph i has 8i to 8i+7 (R203). -/
  cgram : List Byte
  /-- How many transfers it has latched. -/
  latches : Nat
  deriving DecidableEq, Repr

/-- The byte whose bit k is `bit k`. -/
def byteOfBits (bit : Nat → Bool) : Byte :=
  BitVec.ofBool (bit 7) ++ BitVec.ofBool (bit 6) ++ BitVec.ofBool (bit 5) ++ BitVec.ofBool (bit 4)
    ++ BitVec.ofBool (bit 3) ++ BitVec.ofBool (bit 2) ++ BitVec.ofBool (bit 1) ++ BitVec.ofBool (bit 0)

/-- The level on controller pin DB[k]: that of the one line D[i] which `WIRING` takes there (R5). A pin that no line
reaches, or that two lines reach, is at a level nobody fixes (R202; assumption 20). -/
def pinLevel (c : Config) (d : List Bool) (latch k : Nat) : Bool :=
  match c.wiring.idxOf? k with
  | some i => if c.wiring.count k = 1 then d.getD i (Config.floatingPin latch k) else Config.floatingPin latch k
  | none => Config.floatingPin latch k

/-- The byte on the controller's pins DB7 to DB0. -/
def receiverPins (c : Config) (d : List Bool) (latch : Nat) : Byte :=
  byteOfBits fun k => pinLevel c d latch k

/-- The DDRAM addresses shown in 2-row mode (R207). -/
def ddramVisible (a : BitVec 7) : Bool := a.toNat % 0x40 ≤ 0x27

/-- The receiver with its address counter and its memories at values nobody fixes. -/
def Receiver.unfixedMemory (r : Receiver) : Receiver :=
  { r with
    pointer :=
      if Config.freeInCgram r.latches then .cgram ((Config.freeAddress r.latches).extractLsb' 0 6)
      else .ddram (Config.freeAddress r.latches)
    ddram := (List.range 128).map fun k => Config.freeCell r.latches k
    cgram := (List.range 64).map fun k => Config.freeCell r.latches (128 + k) }

/-- The receiver after a byte of which the spec states no effect: nothing but its bus mode and its pairing is kept, since
R202 says that an unknown byte does not keep the initialisation from working (assumption 25). -/
def Receiver.unfixed (r : Receiver) : Receiver :=
  { r.unfixedMemory with
    twoLine := Config.freeFlag r.latches 0
    tallFont := Config.freeFlag r.latches 1
    displayOn := Config.freeFlag r.latches 2
    cursorOn := Config.freeFlag r.latches 3
    blinkOn := Config.freeFlag r.latches 4
    entryLeft := Config.freeFlag r.latches 5
    entryShift := Config.freeFlag r.latches 6 }

/-- DDRAM ends at `a` in the direction `up`: at the ends of the visible ranges in 2-row mode (R207). Of 1-row mode the
spec gives no range: that DDRAM then runs through all 7-bit addresses is the model's choice (PRESUMED, unsafe:
assumption 21). -/
def ddramEnds (twoLine up : Bool) (a : BitVec 7) : Bool :=
  if twoLine then a.toNat % 0x40 = (if up then 0x27 else 0) else a.toNat = (if up then 0x7F else 0)

/-- The address after `a` in DDRAM (R204), the j-th latch writing at `a`. Where it would leave its range the spec fixes
nothing (I8). -/
def ddramNext (j : Nat) (twoLine up : Bool) (a : BitVec 7) : BitVec 7 :=
  if ddramEnds twoLine up a then Config.ddramEdge j else if up then a + 1 else a - 1

/-- The address after `a` in CGRAM, the j-th latch writing at `a`; past either end the spec fixes nothing. -/
def cgramNext (j : Nat) (up : Bool) (a : BitVec 6) : BitVec 6 :=
  if a.toNat = (if up then 0x3F else 0) then Config.cgramEdge j else if up then a + 1 else a - 1

/-- In 2-row mode the spec fixes nothing of the DDRAM addresses outside the visible ranges (R207, I8). -/
def Receiver.hides (r : Receiver) (a : BitVec 7) : Bool := r.twoLine && !ddramVisible a

/-- A data byte is written at the address counter, which then advances in the direction of entry-left (R204). Written at
a hidden address, it leaves the memories and the counter at values nobody fixes (I8). -/
def Receiver.writeData (r : Receiver) (b : Byte) : Receiver :=
  match r.pointer with
  | .ddram a =>
    if r.hides a then r.unfixedMemory
    else { r with ddram := r.ddram.set a.toNat b, pointer := .ddram (ddramNext r.latches r.twoLine r.entryLeft a) }
  | .cgram a => { r with cgram := r.cgram.set a.toNat b, pointer := .cgram (cgramNext r.latches r.entryLeft a) }

/-- The DDRAM-address command (R203). A hidden address leaves the memories and the counter at values nobody fixes
(R207, I8). -/
def Receiver.setDdramAddress (r : Receiver) (a : BitVec 7) : Receiver :=
  if r.hides a then r.unfixedMemory else { r with pointer := .ddram a }

/-- A command byte, decoded by its highest set bit (R203). No effect is stated of the shift command 0x10 to 0x1F (I25),
nor of 0x00, which has no set bit (assumption 25). -/
def Receiver.command (r : Receiver) (b : Byte) : Receiver :=
  if b.getLsbD 7 then r.setDdramAddress (b.extractLsb' 0 7)
  else if b.getLsbD 6 then { r with pointer := .cgram (b.extractLsb' 0 6) }
  else if b.getLsbD 5 then
    { r with eightBit := b.getLsbD 4, high := none, twoLine := b.getLsbD 3, tallFont := b.getLsbD 2 }
  else if b.getLsbD 4 then r.unfixed
  else if b.getLsbD 3 then { r with displayOn := b.getLsbD 2, cursorOn := b.getLsbD 1, blinkOn := b.getLsbD 0 }
  else if b.getLsbD 2 then { r with entryLeft := b.getLsbD 1, entryShift := b.getLsbD 0 }
  else if b.getLsbD 1 then { r with pointer := .ddram 0 }
  else if b.getLsbD 0 then { r with ddram := List.replicate 128 0x20, pointer := .ddram 0 }
  else r.unfixed

/-- The receiver acts on a byte (R203, R204). -/
def Receiver.act (r : Receiver) (rs : Bool) (b : Byte) : Receiver :=
  if rs then r.writeData b else r.command b

/-- The register-select level of a byte paired from two transfers, the second being the j-th latch. Of two different
levels the spec does not say which counts (R202: "one unknown command or data write"; assumption 24). -/
def pairedSelect (first second : Bool) (latch : Nat) : Bool :=
  if first = second then second else Config.pairSelect latch

/-- The receiver latches a transfer (R201): in 8-bit mode it acts on each, in 4-bit mode it pairs them, the first
being bits 7:4, on the pins DB7 to DB4. -/
def Receiver.latch (r : Receiver) (rs : Bool) (pins : Byte) : Receiver :=
  let counted := { r with latches := r.latches + 1 }
  if r.eightBit then counted.act rs pins
  else
    match r.high with
    | none => { counted with high := some (rs, highNibble pins) }
    | some (first, high) =>
      { counted with high := none }.act (pairedSelect first rs r.latches) (high ++ highNibble pins)

/-- The receiver sees one event: it latches at a falling edge of E (R200). -/
def Receiver.see (r : Receiver) (c : Config) (l : Lines) (event : BusEvent) : Receiver :=
  if l.falls event then r.latch l.rs (receiverPins c l.d r.latches) else r

/-- The receiver after a list of events performed in order, from line levels `l`. It acts on every byte at once: that
durations play no part, also where a transfer comes before the receiver's execution time of R206 has passed, is the
model's choice (PRESUMED, unsafe: assumption 26). So is that it acts however short it has been powered: what it does
before `Config.tPowerOn` has passed the spec leaves open (R130, R252, D21; PRESUMED, unsafe: assumption 27). -/
def Receiver.observe (c : Config) : Receiver → Lines → List BusEvent → Receiver
  | r, _, [] => r
  | r, l, event :: rest => Receiver.observe c (r.see c l event) (l.apply event) rest

/-- The eight rows of custom glyph `i` in CGRAM: the low 5 bits of each byte (R205). -/
def Receiver.glyphRows (r : Receiver) (i : Nat) : List (BitVec 5) :=
  (List.range 8).map fun row => (r.cgram.getD (8 * i + row) 0).extractLsb' 0 5

/-- What the cells of a character code show, as pixel rows (R205): codes 0 to 7, and again 8 to 15, the eight custom
glyphs, any other code what the character ROM gives. R53 and R205 speak of 5x8 cells: with the 5x11 font nobody fixes
what is shown (I6; assumption 22). -/
def Receiver.cellRows (r : Receiver) (code : Byte) : List (BitVec 5) :=
  if code.toNat < 16 then
    let rows := r.glyphRows (code.toNat % 8)
    if r.tallFont then Config.tallGlyph r.twoLine rows else rows
  else Config.characterRom r.tallFont r.twoLine code

/-- The receiver's execution time of a byte, about, in microseconds (R206), which `Receiver.observe` does not wait for
(assumption 26): clear and home take long, home being every
command whose highest set bit is bit 1 (R203). Of 0x00, which is no command, the spec states no time. -/
def receiverTime (rs : Bool) (b : Byte) : Nat :=
  if rs then 37
  else if b = 0x00 then Config.noCommandTime
  else if b &&& 0xFC = 0x00 then 1520
  else 37

end Sys2Proof.Machine
end

