-- ==== Sys2Proof/Safety.lean ====
section
/-! DEFINITION. What a safe run is, in the terms the claims use: the states a run can reach, the discipline of the
enable line, and what the host owes the block (70_reset_and_hazards.md). -/

namespace Sys2Proof.Machine

/-! ## The states of a run -/

/-- The block can take a request now, and its bus width is `w`: it is idle and not faulted (R30, R31). -/
structure State.Ready (s : State) (w : BusWidth) : Prop where
  width : s.config.width? = some w
  fault : s.status.fault = false
  busy : s.status.busy = false

/-- The reset value of FS, also its value with the flags 2-line and 5x11-font clear (R23). -/
def functionSetBase (w : BusWidth) : Byte :=
  match w with
  | .four => 0x20
  | .eight => 0x30

/-- The line levels reset leaves (R21, R22). -/
def Lines.atReset (w : BusWidth) : Lines :=
  { outputs := true, rs := false, e := false, d := List.replicate w.lines false }

/-- The hardwired bits of the shadows, whatever the width (R23 to R25): base bits 1, bits outside base and flags 0. -/
structure State.Hardwired (s : State) : Prop where
  fs : s.fs &&& 0xE3 = 0x20
  dc : s.dc &&& 0xF8 = 0x08
  dm : s.dm &&& 0xFC = 0x04

/-- The shape of the shadows (R101): base bits 1, bits outside base and flags 0, 8-bit-bus equal to (N = 8). -/
structure State.ShadowsShaped (s : State) (w : BusWidth) : Prop where
  fs : s.fs &&& 0xF3 = functionSetBase w
  dc : s.dc &&& 0xF8 = 0x08
  dm : s.dm &&& 0xFC = 0x04

/-- What holds in every state of a run. -/
structure State.Inv (s : State) : Prop where
  /-- A block without a legal width is faulted (R231). -/
  built : s.config.width? = none → s.status.fault = true
  /-- BUSY means that the event list is not finished (R27, R30). -/
  busy : s.status.busy = true ↔ s.seq ≠ []
  /-- RQPART means that the request buffer is not empty (R27, R32). -/
  part : s.status.rqPart = true ↔ s.rq ≠ []
  /-- The request buffer never holds a whole request, nor a reserved opcode (R32). -/
  unfinished : decodeRequest s.rq = .incomplete
  /-- A faulted block is idle, with an empty request buffer (R223). -/
  quiet : s.status.fault = true → s.seq = [] ∧ s.rq = []
  /-- ERRCODE and ERRINFO are 0x00 while FAULT = 0 (R28, R29). -/
  noError : s.status.fault = false → s.errcode = 0x00 ∧ s.errinfo = 0x00
  /-- ERRCODE holds a code of R221 while FAULT = 1. -/
  error : s.status.fault = true → ∃ error : ConfigError, s.errcode = error.code
  /-- The shape of the shadows (R101). -/
  shadows : ∀ w, s.config.width? = some w → s.ShadowsShaped w
  /-- The hardwired bits of the shadows, of a block without a legal width too (R23 to R25). -/
  hardwired : s.Hardwired
  /-- The level of every line follows from its reset level and the Drive events performed (R36). -/
  levels : ∀ w, s.config.width? = some w → s.lines = (Lines.atReset w).replay s.tr
  /-- E is low once the pending events are performed (R188). -/
  enableRests : ∀ w, s.config.width? = some w → (s.lines.applyAll s.seq).e = false
  /-- Every event took at least its lower bound (R33, R184). -/
  bounds : ∀ p ∈ s.tr, (p.event.minTime : ℝ) ≤ p.duration
  /-- Each event has a draw of its own (R33), and the draws are taken in order. -/
  draws : (s.tr.map Performed.draw).Pairwise (· < ·) ∧ ∀ p ∈ s.tr, p.draw < s.draws
  /-- A block without a legal width has performed nothing (R231). -/
  silent : s.config.width? = none → s.tr = []

/-! ## The discipline of the enable line -/

/-- Where in an enable pulse the bus is. -/
inductive PulsePhase where
  /-- Between transfers. -/
  | rest
  /-- E was just driven low at the start of a transfer. -/
  | low
  /-- It has been held low for T_EN_LOW. -/
  | lowHeld
  /-- E was just driven high. -/
  | high
  /-- It has been held high for T_EN_HIGH. -/
  | highHeld
  /-- E has fallen, and the settle wait is owed. -/
  | fallen
  deriving DecidableEq, Repr

/-- What R182, R184, R187 and R188 allow next: RS and the data lines move between transfers only, E moves in a pulse
only, and each hold and settle wait is kept. `none` is a violation. -/
def PulsePhase.after (c : Config) (phase : PulsePhase) (event : BusEvent) : Option PulsePhase :=
  match phase, event with
  | .rest, .drive .e false => some .low
  | .rest, .drive .e true => none
  | .rest, .drive .rs _ => some .rest
  | .rest, .drive (.d _) _ => some .rest
  | .rest, .wait _ => some .rest
  | .low, .wait t => if c.tEnLow ≤ t then some .lowHeld else none
  | .low, .drive _ _ => none
  | .lowHeld, .drive .e true => some .high
  | .lowHeld, .drive .e false => none
  | .lowHeld, .drive .rs _ => none
  | .lowHeld, .drive (.d _) _ => none
  | .lowHeld, .wait _ => none
  | .high, .wait t => if c.tEnHigh ≤ t then some .highHeld else none
  | .high, .drive _ _ => none
  | .highHeld, .drive .e false => some .fallen
  | .highHeld, .drive .e true => none
  | .highHeld, .drive .rs _ => none
  | .highHeld, .drive (.d _) _ => none
  | .highHeld, .wait _ => none
  | .fallen, .wait t => if c.tSettle ≤ t then some .rest else none
  | .fallen, .drive _ _ => none

/-- The phase after a list of events, if none violates the discipline. -/
def PulsePhase.run (c : Config) : PulsePhase → List BusEvent → Option PulsePhase
  | phase, [] => some phase
  | phase, event :: events =>
    match phase.after c event with
    | none => none
    | some next => next.run c events

/-- What the block has performed and what it still has to perform is whole transfers, with the lines moving only
between them. -/
def State.PulseDisciplined (s : State) : Prop :=
  PulsePhase.run s.config .rest (s.tr.map Performed.event ++ s.seq) = some .rest

/-! ## The traffic of the opcode table -/

/-- A piece of a request's event list: a row of bus traffic of opcode_table.json, or one of the events requests put
between rows. -/
inductive BusItem where
  /-- A command byte (R76). -/
  | command (b : Byte)
  /-- A data byte (R77). -/
  | data (b : Byte)
  /-- An initialisation nibble (R78). -/
  | nibble (v : Nibble)
  /-- The one drive of RS before the initialisation nibbles (R132). -/
  | rsLow
  /-- A wait after a row (R132, R133, R150, R151). -/
  | gap (t : Nat)
  deriving DecidableEq, Repr

/-- The events of an item. -/
def BusItem.events (c : Config) (w : BusWidth) : BusItem → List BusEvent
  | .command b => writeCommand c w b
  | .data b => writeData c w b
  | .nibble v => transfer c v
  | .rsLow => [.drive .rs false]
  | .gap t => [.wait t]

/-- A command byte has a row in the table, and a FunctionSet byte has its 8-bit-bus flag equal to (N = 8); a lone nibble
has a row and N is 4 (R78, R79). -/
def BusItem.inTable (w : BusWidth) : BusItem → Bool
  | .command b =>
    (decodeWireCommand b).isSome && (b &&& 0xE0 != 0x20 || b.getLsbD 4 == decide (w = .eight))
  | .data _ => true
  | .nibble v => decide (w = .four) && (decodeWireNibble false v).isSome
  | .rsLow => true
  | .gap _ => true

/-! ## What the host owes -/

/-- The controller was powered long enough before INIT (R252 step 1, D21). -/
def poweredLongEnough (microseconds : ℕ) : Prop := Config.tPowerOn ≤ microseconds

/-- A request that shows something on the display, or moves its cursor (42_display_operations.md). -/
def isDisplayRequest : Instr → Bool
  | .clear | .home | .move _ _ | .print _ | .cglyph _ _ _ _ _ _ _ _ _ | .sglyph _ => true
  | .init _ _ | .setbw _ | .setlines _ | .setfont _ => false
  | .setdisp _ | .setcurs _ | .setblink _ | .setdir _ | .setshift _ => false
  | .wClearDisplay | .wReturnHome | .wDisplayMode _ _ | .wDisplayControl _ _ _ | .wFunctionSet _ _ _ => false
  | .wCgramAddr _ | .wDdramAddr _ _ | .wData _ | .wInitNibble3 | .wInitNibble2 => false

/-- Where the controller's address counter points after a request, if the request moves it there: CGLYPH into CGRAM,
MOVE, CLEAR and HOME into DDRAM (R255). `none`: the request leaves it where it is. -/
def leavesPointerInCgram : Instr → Option Bool
  | .cglyph _ _ _ _ _ _ _ _ _ => some true
  | .move _ _ | .clear | .home => some false
  | .init _ _ | .print _ | .sglyph _ | .setbw _ | .setlines _ | .setfont _ => none
  | .setdisp _ | .setcurs _ | .setblink _ | .setdir _ | .setshift _ => none
  | .wCgramAddr _ => some true
  | .wClearDisplay | .wReturnHome | .wDdramAddr _ _ => some false
  | .wDisplayMode _ _ | .wDisplayControl _ _ _ | .wFunctionSet _ _ _ => none
  | .wData _ | .wInitNibble3 | .wInitNibble2 => none

/-- A request that means to show a character: PRINT of at least one byte, or SGLYPH (R255). -/
def showsCharacter : Instr → Bool
  | .print text => !text.isEmpty
  | .sglyph _ => true
  | .init _ _ | .clear | .home | .move _ _ | .cglyph _ _ _ _ _ _ _ _ _ => false
  | .setbw _ | .setlines _ | .setfont _ => false
  | .setdisp _ | .setcurs _ | .setblink _ | .setdir _ | .setshift _ => false
  | .wClearDisplay | .wReturnHome | .wDisplayMode _ _ | .wDisplayControl _ _ _ | .wFunctionSet _ _ _ => false
  | .wCgramAddr _ | .wDdramAddr _ _ | .wData _ | .wInitNibble3 | .wInitNibble2 => false

/-- The character-generator pointer hazard of R255: no character is shown while the controller's address counter
points into CGRAM, `inCgram`. -/
def avoidsCgramHazard (inCgram : Bool) : List Instr → Bool
  | [] => true
  | i :: rest =>
    !(inCgram && showsCharacter i) && avoidsCgramHazard ((leavesPointerInCgram i).getD inCgram) rest

/-- A request that changes a shadow register and sends nothing (R111). -/
def isSetter : Instr → Bool
  | .setbw _ | .setlines _ | .setfont _ => true
  | .setdisp _ | .setcurs _ | .setblink _ | .setdir _ | .setshift _ => true
  | .init _ _ | .clear | .home | .move _ _ | .print _ | .cglyph _ _ _ _ _ _ _ _ _ | .sglyph _ => false
  | .wClearDisplay | .wReturnHome | .wDisplayMode _ _ | .wDisplayControl _ _ _ | .wFunctionSet _ _ _ => false
  | .wCgramAddr _ | .wDdramAddr _ _ | .wData _ | .wInitNibble3 | .wInitNibble2 => false

/-- INIT. -/
def isInit : Instr → Bool
  | .init _ _ => true
  | .clear | .home | .move _ _ | .print _ | .cglyph _ _ _ _ _ _ _ _ _ | .sglyph _ => false
  | .setbw _ | .setlines _ | .setfont _ => false
  | .setdisp _ | .setcurs _ | .setblink _ | .setdir _ | .setshift _ => false
  | .wClearDisplay | .wReturnHome | .wDisplayMode _ _ | .wDisplayControl _ _ _ | .wFunctionSet _ _ _ => false
  | .wCgramAddr _ | .wDdramAddr _ _ | .wData _ | .wInitNibble3 | .wInitNibble2 => false

/-- The boot order of R252, steps 2 to 4: INIT comes before the first display request. -/
def bootOrder : List Instr → Bool
  | [] => true
  | i :: rest => isInit i || (!isDisplayRequest i && bootOrder rest)

/-- The stale shadow hazard of R256: every setter is followed by an INIT, so that its value reaches the controller. -/
def flushesShadows : List Instr → Bool
  | [] => true
  | i :: rest => (!isSetter i || rest.any isInit) && flushesShadows rest

/-- One host, and nothing else on the bus (R229, R257). -/
def oneAgent (actions : List HostAction) : Bool :=
  actions.all fun a =>
    match a with
    | .secondAgentWrite _ _ | .foreignDrive _ _ => false
    | .pass | .read _ | .write _ _ | .reset => true

end Sys2Proof.Machine
end

