-- ==== Sys2Proof/Certificates/Slice0/Obligations.lean ====
section
/-! DEFINITION. The statements for the provers. Where one rests on a choice the spec marks as its own (a decision D<n>
of 92_eei_decisions.md) or on a choice of the model's (an assumption), its docstring says so. -/

open Sys2Proof Sys2Proof.Machine

/-! ## Encoding -/

/-- R70 to R72: the request stream is read back as it was written, whatever follows in the stream. -/
def Obligations.WrittenRequestIsReadBack : Prop :=
  ∀ (i : Instr) (bytes rest : List Byte), i.wellFormed = true → encode i = .request bytes →
    decodeRequest (bytes ++ rest) = .complete i rest

/-- R70 to R78: every instruction of the table is decoded from its own words. -/
def Obligations.DecodeOfEncodeIsIdentity : Prop :=
  ∀ i : Instr, i.wellFormed = true → decode (encode i) = .ok i

/-- R70 to R79: words that are decoded are the encoding of what they are decoded to, so no two words mean the same. -/
def Obligations.EncodeOfDecodeIsIdentity : Prop :=
  ∀ (words : Encoding) (i : Instr), decode words = .ok i → i.wellFormed = true ∧ encode i = words

/-- R71: a request is complete exactly when its buffer has the length `Len` gives, incomplete exactly while it is
shorter, and no request is longer than 257 bytes. -/
def Obligations.RequestIsCompleteAtItsLength : Prop :=
  ∀ (op : Byte) (operands : List Byte), Opcode.ofByte op ≠ none →
    let b1 := operands.headD 0
    let len :=
      if op ∈ [0x02, 0x03] then 1
      else if op ∈ [0x07, 0x10, 0x11, 0x12, 0x13, 0x14, 0x15, 0x16, 0x17] then 2
      else if op ∈ [0x01, 0x04] then 3
      else if op = 0x06 then 10
      else 2 + b1.toNat
    ((∃ i, decodeRequest (op :: operands) = .complete i []) ↔ (op :: operands).length = len) ∧
    (decodeRequest (op :: operands) = .incomplete ↔ (op :: operands).length < len) ∧
    len ≤ 257

/-- R76, R78: words written out from the spec's encodings are decoded to the instructions they stand for. -/
def Obligations.SpecWordsAreDecoded : Prop :=
  decode (.request [0b00000001, 0x10, 0x02]) = .ok (.init 16 2) ∧
  decode (.request [0b00000100, 0x05, 0x01]) = .ok (.move 5 1) ∧
  decode (.request [0b00000101, 0x02, 0x48, 0x69]) = .ok (.print [0x48, 0x69]) ∧
  decode (.request [0b00010010, 0x0B]) = .ok (.setfont 0x0B) ∧
  decode (.wireByte false 0b00000101) = .ok (.wDisplayMode false true) ∧
  decode (.wireByte false 0b00101000) = .ok (.wFunctionSet false true false) ∧
  decode (.wireByte false 0b01011000) = .ok (.wCgramAddr 3) ∧
  decode (.wireByte false 0b11000101) = .ok (.wDdramAddr true 5) ∧
  decode (.wireByte true 0b01001000) = .ok (.wData 0x48) ∧
  decode (.wireNibble false 0b0010) = .ok .wInitNibble2

/-- R79: a command byte is a row of bus traffic exactly if it is not one of those the block never emits. -/
def Obligations.CommandRowsAreTheEmittedBytes : Prop :=
  ∀ b : Byte,
    (∃ i : Instr, encode i = .wireByte false b) ↔
      ¬ (b = 0x00 ∨ b = 0x03 ∨ (0x10 ≤ b ∧ b ≤ 0x1F) ∨
        (0x20 ≤ b ∧ b ≤ 0x3F ∧ (b.getLsbD 0 ∨ b.getLsbD 1)) ∨
        (0x40 ≤ b ∧ b ≤ 0x7F ∧ ∀ i : BitVec 3, b ≠ 0b01#2 ++ i ++ 0b000#3))

/-- R79, R132, R133: on a block whose `CGRAM_CMD` is the default one (D27), every event list a request starts is made of
rows of bus traffic of the opcode table, of waits, and of INIT's one drive of RS. -/
def Obligations.RequestsEmitTableTrafficOnly : Prop :=
  ∀ (s t : State) (w : BusWidth) (i : Instr) (bytes : List Byte), s.Inv → s.Ready w →
    (∀ g : BitVec 3, s.config.cgramCmd[g.toFin] = 0b01#2 ++ g ++ 0b000#3) →
    encode i = .request bytes → exec i s = .next t →
    ∃ items : List BusItem, t.seq = items.flatMap (BusItem.events s.config w) ∧
      ∀ item ∈ items, item.inTable w = true

/-! ## Reset -/

/-- R250, R231: the state reset leaves, for a legal bus width and for any other. The levels and the fault of a bad
width are the spec's decisions D4 and D36. With an illegal width the shadows keep their hardwired bits (R23 to R25), and
no other bit of them is known (assumption 6). -/
def Obligations.ResetConstructsTheBlock : Prop :=
  (∀ (c : Config) (w : BusWidth), c.width? = some w →
    let s := State.construct c
    s.lines = { outputs := true, rs := false, e := false, d := List.replicate w.lines false } ∧
    s.fs = 0x20 ||| (if w = .eight then 0x10 else 0) ∧ s.dc = 0x0C ∧ s.dm = 0x06 ∧
    s.readRegister 0x07 = BitVec.ofNat 8 w.lines ∧
    s.status.toByte = 0x00 ∧ s.errcode = 0x00 ∧ s.errinfo = 0x00 ∧
    s.seq = [] ∧ s.curop = 0x00 ∧ s.rq = [] ∧ s.tr = []) ∧
  (∀ c : Config, c.n ≠ 4 → c.n ≠ 8 →
    let s := State.construct c
    s.lines.outputs = false ∧ s.status.toByte = 0x02 ∧ s.errcode = 0x01 ∧ s.errinfo = 0x00 ∧
    s.fs &&& 0xE3 = 0x20 ∧ s.dc &&& 0xF8 = 0x08 ∧ s.dm &&& 0xFC = 0x04 ∧
    s.readRegister 0x07 = BitVec.ofNat 8 c.n ∧ s.seq = [] ∧ s.rq = [] ∧ s.tr = [])

/-- R224: reset is the way out of a fault, and the block it leaves is a new one. What the host still does and has read
are its own, and the draws go on (assumption 7). -/
def Obligations.ResetLeavesTheFault : Prop :=
  ∀ (s : State) (rest : List HostAction) (w : BusWidth), s.host = .reset :: rest → s.config.width? = some w →
    ∃ t, step s = .next t ∧ t.status.toByte = 0x00 ∧ t.errcode = 0x00 ∧ t.errinfo = 0x00 ∧
      t = { State.constructed s.config w with host := rest, answers := s.answers, draws := s.draws }

/-- The state after reset is one of a run, whatever the parameters and whatever the bus width. -/
def Obligations.ResetMeetsTheInvariant : Prop :=
  ∀ c : Config, (State.construct c).Inv ∧ (State.construct c).PulseDisciplined

/-! ## Whole-machine rules -/

/-- R27 to R36, R101, R188, R223: the invariant of `State.Inv` is kept by every step, from every state that meets it. -/
def Obligations.StepKeepsTheInvariant : Prop :=
  ∀ s t : State, s.Inv → step s = .next t → t.Inv

/-- R182, R184, R187, R188: what the block performs keeps the discipline of the enable pulse, from every state that
meets it: RS and the data lines move between transfers only, E moves in a pulse only, and every hold and settle wait
is kept. -/
def Obligations.StepKeepsThePulseDiscipline : Prop :=
  ∀ s t : State, s.Inv → s.PulseDisciplined → step s = .next t → t.PulseDisciplined

/-- The meanings keep the invariant and the pulse discipline, those of the rows of bus traffic among them. -/
def Obligations.ExecKeepsTheInvariant : Prop :=
  ∀ (i : Instr) (s t : State), s.Inv → s.PulseDisciplined → exec i s = .next t → t.Inv ∧ t.PulseDisciplined

/-- R20: the bus width, and every other parameter of the block, never changes. -/
def Obligations.BusWidthNeverChanges : Prop :=
  ∀ s t : State, step s = .next t → t.config = s.config ∧ t.readRegister 0x07 = s.readRegister 0x07

/-- R62, R30: what the block has performed followed by what it still has to perform only grows at its end, and only
when nothing is pending; a step performs at most one event. So every event of one request comes before the first
event of the next. -/
def Obligations.EventsArePerformedInOrder : Prop :=
  ∀ s t : State, s.Inv → step s = .next t → (∀ rest, s.host ≠ .reset :: rest) →
    ∃ (performed : List Performed) (added : List BusEvent),
      t.tr = s.tr ++ performed ∧ performed.length ≤ 1 ∧
      t.tr.map Performed.event ++ t.seq = s.tr.map Performed.event ++ s.seq ++ added ∧
      (added = [] ∨ s.seq = [])

/-- R224: a faulted block stays as it is, whatever the host does short of a reset; only the host's own fields move. -/
def Obligations.FaultHaltsTheBlock : Prop :=
  ∀ s t : State, s.Inv → s.status.fault = true → (∀ rest, s.host ≠ .reset :: rest) → step s = .next t →
    t = { s with host := t.host, answers := t.answers }

/-- R51, R31: the shadow registers do not change while BUSY = 1. -/
def Obligations.ShadowsHoldWhileBusy : Prop :=
  ∀ s t : State, s.status.busy = true → (∀ rest, s.host ≠ .reset :: rest) → step s = .next t →
    t.fs = s.fs ∧ t.dc = s.dc ∧ t.dm = s.dm

/-- R30, R33, R59: with the host silent, a request runs to completion, in as many steps as it has events: all of them are
performed in order, the lines are where they leave them, and the completion is INIT's if the request was. -/
def Obligations.RequestRunsToCompletion : Prop :=
  ∀ s : State, s.seq ≠ [] → s.host = [] →
    ∃ (t : State) (performed : List Performed),
      core.run s.seq.length s = .next t ∧ t.seq = [] ∧
      t.tr = s.tr ++ performed ∧ performed.map Performed.event = s.seq ∧
      (∀ p ∈ performed, (p.event.minTime : ℝ) ≤ p.duration) ∧
      t.lines = s.lines.applyAll s.seq ∧
      t.status = { s.status with busy := false, initDone := s.status.initDone || s.curop == 0x01 } ∧
      t.fs = s.fs ∧ t.dc = s.dc ∧ t.dm = s.dm ∧ t.curop = s.curop

/-! ## Steps -/

/-- R31, R32: the byte that completes a request on a block that is idle and not faulted runs it. -/
def Obligations.StepRunsTheDecodedRequest : Prop :=
  ∀ (s : State) (w : BusWidth) (b : Byte) (rest : List HostAction) (i : Instr), s.Ready w →
    s.host = .write s.config.regBase b :: rest → decodeRequest (s.rq ++ [b]) = .complete i [] →
    step s = exec i { s with host := rest, rq := s.rq ++ [b] }

/-- R32, R224, R259 (D33): the REQ writes that run no request. A byte that does not complete one joins RQ and sets
RQPART. A byte written while BUSY = 1 is held: the block goes on with its events, and the write is still the host's
next action. A byte written to a faulted block is discarded. -/
def Obligations.ReqWriteIsKeptHeldOrDiscarded : Prop :=
  ∀ (s : State) (w : BusWidth) (b : Byte) (rest : List HostAction), s.host = .write s.config.regBase b :: rest →
    (s.Ready w → decodeRequest (s.rq ++ [b]) = .incomplete →
      step s = .next { s with host := rest, rq := s.rq ++ [b], status := { s.status with rqPart := true } }) ∧
    (s.status.fault = false → s.status.busy = true →
      step s = .next s.blockStep ∧ s.blockStep.host = s.host) ∧
    (s.status.fault = true → step s = .next { s with host := rest })

/-- R73 (D15): a reserved opcode raises BAD_OPCODE as soon as it is written as the first byte of a request. No event is
emitted, and no register changes except those of fault entry. -/
def Obligations.ReservedOpcodeFaults : Prop :=
  ∀ (s : State) (w : BusWidth) (b : Byte) (rest : List HostAction), s.Ready w → s.rq = [] →
    s.host = .write s.config.regBase b :: rest →
    (b = 0x00 ∨ (0x08 ≤ b ∧ b ≤ 0x0F) ∨ 0x18 ≤ b) →
    step s = .next { s with
      host := rest
      status := { s.status with fault := true, rqPart := false }
      errcode := 0x08
      errinfo := b }

/-- R33, R180, R181 (D20): a block step performs exactly the head event. A Drive moves its line, a Wait moves none, the trace
grows by the event with a draw of its own, whose duration is at least the event's lower bound (assumption 4), and nothing else changes but for completion with the
last event (R30, R134): BUSY is cleared, and INITDONE is set if the request was INIT. -/
def Obligations.BlockStepPerformsTheHeadEvent : Prop :=
  ∀ (s : State) (event : BusEvent) (rest : List BusEvent), s.host = [] → s.seq = event :: rest →
    let entry : Performed := { event := event, draw := s.draws }
    (match event with
      | .drive _ _ => (0 : ℝ) ≤ entry.duration
      | .wait t => (t : ℝ) ≤ entry.duration) ∧
      step s = .next { s with
        lines :=
          match event with
          | .drive .rs v => { s.lines with rs := v }
          | .drive .e v => { s.lines with e := v }
          | .drive (.d i) v => { s.lines with d := s.lines.d.set i v }
          | .wait _ => s.lines
        tr := s.tr ++ [entry]
        draws := s.draws + 1
        seq := rest
        status :=
          if rest = [] then { s.status with busy := false, initDone := s.status.initDone || s.curop == 0x01 }
          else s.status }

/-- R71: an idle block with nothing from the host does nothing. -/
def Obligations.IdleBlockWaits : Prop :=
  ∀ s : State, s.host = [] → s.seq = [] → step s = .next s

/-- R51 (D3, D32): a host read returns the register at its offset, and changes nothing in the block. Offsets count from
`REG_BASE`. -/
def Obligations.HostReadReturnsTheRegister : Prop :=
  ∀ (s : State) (offset : Byte) (rest : List HostAction),
    s.host = .read (s.config.regBase + offset.toNat) :: rest →
    step s = .next { s with
      host := rest
      answers := s.answers ++
        [match offset.toNat with
          | 1 => 0#4 ++ BitVec.ofBool s.status.rqPart ++ BitVec.ofBool s.status.initDone
              ++ BitVec.ofBool s.status.fault ++ BitVec.ofBool s.status.busy
          | 2 => s.errcode
          | 3 => s.errinfo
          | 4 => s.fs
          | 5 => s.dc
          | 6 => s.dm
          | 7 => BitVec.ofNat 8 s.config.n
          | _ => 0x00] }

/-- R26 to R29, R51 (D32): a host write to any offset but that of REQ has no effect. -/
def Obligations.HostWriteElsewhereHasNoEffect : Prop :=
  ∀ (s : State) (offset b : Byte) (rest : List HostAction), offset ≠ 0x00 →
    s.host = .write (s.config.regBase + offset.toNat) b :: rest → step s = .next { s with host := rest }

/-- R229 (D35): a second agent that writes is refused. R257: so is anything else that drives the bus, as a fault. The
outcomes' names, and the refusal of addresses outside the register map, are the model's (assumptions 11 and 12). -/
def Obligations.OtherAgentsAreRefused : Prop :=
  (∀ (s : State) (address : Nat) (b : Byte) (rest : List HostAction),
    s.host = .secondAgentWrite address b :: rest → step s = .refused .secondAgent) ∧
  (∀ (s : State) (line : Line) (v : Bool) (rest : List HostAction),
    s.host = .foreignDrive line v :: rest → step s = .fault .foreignDrive) ∧
  (∀ (s : State) (address : Nat) (b : Byte) (rest : List HostAction),
    (address < s.config.regBase ∨ s.config.regBase + 256 ≤ address) →
    (s.host = .read address :: rest ∨ s.host = .write address b :: rest) → step s = .refused .outsideRegisterMap)

/-! ## Requests on a block that cannot take one -/

/-- R224: a faulted block discards every request, and puts nothing on the bus. R259 (D33, I37): a busy block has no
request step. -/
def Obligations.UnreadyBlockRunsNoRequest : Prop :=
  ∀ (i : Instr) (s : State),
    (s.status.fault = true → exec i s = .next s) ∧
    (∀ bytes, encode i = .request bytes → s.status.fault = false → s.status.busy = true →
      exec i s = .refused .requestWhileBusy)

/-! ## The flag primitive and the setters -/

/-- R100: SetFlag sets or clears the bits of the mask and leaves every other bit; doing it again changes nothing. -/
def Obligations.SetFlagMovesTheMaskOnly : Prop :=
  ∀ (reg mask : Byte) (enabled : Bool),
    setFlag reg mask enabled = (if enabled then reg ||| mask else reg &&& ~~~mask) ∧
    (∀ k < 8, (setFlag reg mask enabled).getLsbD k = if mask.getLsbD k then enabled else reg.getLsbD k) ∧
    setFlag (setFlag reg mask enabled) mask enabled = setFlag reg mask enabled

/-- R102 (D14): SETBW with the block's own width sets the 8-bit-bus flag to (w = 8), which in a state of a run leaves FS as
it is. No event, no other register. -/
def Obligations.SetbwAcceptsTheBlocksWidth : Prop :=
  ∀ (s : State) (w : BusWidth), s.Ready w →
    exec (.setbw (BitVec.ofNat 8 w.lines)) s = .next { s with
      fs := if w = .eight then s.fs ||| 0x10 else s.fs &&& 0xEF
      rq := []
      curop := 0x10
      status := { s.status with rqPart := false } } ∧
    (s.Inv → ∃ t, exec (.setbw (BitVec.ofNat 8 w.lines)) s = .next t ∧ t.fs = s.fs)

/-- R102, R225 (D14, D17): SETBW of anything but 4 and 8 raises BAD_BUS_WIDTH, and of the other one of the two
BUS_WIDTH_MISMATCH. Fault entry is all that happens (R223). -/
def Obligations.SetbwRefusesOtherWidths : Prop :=
  ∀ (s : State) (w : BusWidth) (b : Byte), s.Ready w → b ≠ BitVec.ofNat 8 w.lines →
    exec (.setbw b) s = .next { s with
      rq := []
      status := { s.status with fault := true, rqPart := false }
      errcode := if b = 4 ∨ b = 8 then 0x09 else 0x01
      errinfo := 0x10 }

/-- R103: SETLINES. Its encoding, its validation, its update, no event, RQPART cleared; and the next INIT overwrites the
flag from its rows operand. -/
def Obligations.SetlinesSetsTheTwoLineFlag : Prop :=
  ∀ (s : State) (w : BusWidth) (n : Byte), s.Ready w →
    decode (.request [0x11, n]) = .ok (.setlines n) ∧
    (n = 1 ∨ n = 2 →
      exec (.setlines n) s = .next { s with
        fs := setFlag s.fs 0x08 (n == 2)
        rq := []
        curop := 0x11
        status := { s.status with rqPart := false } }) ∧
    (n ≠ 1 → n ≠ 2 →
      exec (.setlines n) s = .next { s with
        rq := []
        status := { s.status with fault := true, rqPart := false }
        errcode := 0x02
        errinfo := 0x11 }) ∧
    (∀ columns rows : Byte, rows = 1 ∨ rows = 2 → n = 1 ∨ n = 2 →
      ∃ t u, exec (.setlines n) s = .next t ∧ exec (.init columns rows) t = .next u ∧
        u.fs.getLsbD 3 = (rows == 2))

/-- R104 (D13): SETFONT with the codes 0x08 and 0x0B, and its fault with any other. -/
def Obligations.SetfontSetsTheFontFlag : Prop :=
  ∀ (s : State) (w : BusWidth) (f : Byte), s.Ready w →
    (f = 0x08 ∨ f = 0x0B →
      exec (.setfont f) s = .next { s with
        fs := if f = 0x0B then s.fs ||| 0x04 else s.fs &&& 0xFB
        rq := []
        curop := 0x12
        status := { s.status with rqPart := false } }) ∧
    (f ≠ 0x08 → f ≠ 0x0B →
      exec (.setfont f) s = .next { s with
        rq := []
        status := { s.status with fault := true, rqPart := false }
        errcode := 0x03
        errinfo := 0x12 })

/-- R105 to R107 (D12): the setters of DisplayControl move their own flag of DC and nothing else. -/
def Obligations.DisplayControlSettersSetTheirFlag : Prop :=
  ∀ (s : State) (w : BusWidth) (v : Bool), s.Ready w →
    let b : Byte := if v then 1 else 0
    let after (op dc : Byte) : State :=
      { s with dc := dc, rq := [], curop := op, status := { s.status with rqPart := false } }
    exec (.setdisp b) s = .next (after 0x13 (if v then s.dc ||| 0x04 else s.dc &&& 0xFB)) ∧
    exec (.setcurs b) s = .next (after 0x14 (if v then s.dc ||| 0x02 else s.dc &&& 0xFD)) ∧
    exec (.setblink b) s = .next (after 0x15 (if v then s.dc ||| 0x01 else s.dc &&& 0xFE))

/-- R108, R109 (D12): the setters of DisplayMode move their own flag of DM and nothing else. -/
def Obligations.DisplayModeSettersSetTheirFlag : Prop :=
  ∀ (s : State) (w : BusWidth) (v : Bool), s.Ready w →
    let b : Byte := if v then 1 else 0
    let after (op dm : Byte) : State :=
      { s with dm := dm, rq := [], curop := op, status := { s.status with rqPart := false } }
    exec (.setdir b) s = .next (after 0x16 (if v then s.dm ||| 0x02 else s.dm &&& 0xFD)) ∧
    exec (.setshift b) s = .next (after 0x17 (if v then s.dm ||| 0x01 else s.dm &&& 0xFE))

/-- R105 to R109, R223 (D12): a boolean operand other than 0 and 1 raises BAD_BOOL. -/
def Obligations.BoolSettersRefuseOtherBytes : Prop :=
  ∀ (s : State) (w : BusWidth) (b : Byte), s.Ready w → b ≠ 0 → b ≠ 1 →
    let after (op : Byte) : State :=
      { s with
        rq := []
        status := { s.status with fault := true, rqPart := false }
        errcode := 0x07
        errinfo := op }
    exec (.setdisp b) s = .next (after 0x13) ∧ exec (.setcurs b) s = .next (after 0x14) ∧
    exec (.setblink b) s = .next (after 0x15) ∧ exec (.setdir b) s = .next (after 0x16) ∧
    exec (.setshift b) s = .next (after 0x17)

/-! ## INIT -/

/-- R130 to R132 when N = 4 (D5, D7, D8): the 2-line flag is taken from rows, and the handshake 3, 3, 3, 2 and then FS,
DC and DM is pending. -/
def Obligations.InitOnFourLinesStartsTheHandshake : Prop :=
  ∀ (s : State) (columns rows : Byte), s.Ready .four → (rows = 1 ∨ rows = 2) →
    let fs := if rows = 2 then s.fs ||| 0x08 else s.fs &&& 0xF7
    let nibble (v : Nibble) := transfer s.config v
    let command (b : Byte) := writeByte s.config .four false b
    exec (.init columns rows) s = .next { s with
      fs := fs
      rq := []
      curop := 0x01
      seq := [.drive .rs false]
        ++ nibble 0x3 ++ [.wait s.config.tInitA] ++ nibble 0x3 ++ [.wait s.config.tInitB]
        ++ nibble 0x3 ++ [.wait s.config.tInitC] ++ nibble 0x2
        ++ command fs ++ command s.dc ++ command s.dm
      status := { s.status with busy := true, rqPart := false } }

/-- R130, R131, R133 when N = 8 (D6, D7, D8): FS goes out four times, with the two initialisation gaps, and then DC and
DM. -/
def Obligations.InitOnEightLinesStartsTheHandshake : Prop :=
  ∀ (s : State) (columns rows : Byte), s.Ready .eight → (rows = 1 ∨ rows = 2) →
    let fs := if rows = 2 then s.fs ||| 0x08 else s.fs &&& 0xF7
    let command (b : Byte) := writeByte s.config .eight false b
    exec (.init columns rows) s = .next { s with
      fs := fs
      rq := []
      curop := 0x01
      seq := command fs ++ [.wait s.config.tInitA] ++ command fs ++ [.wait s.config.tInitC]
        ++ command fs ++ command fs ++ command s.dc ++ command s.dm
      status := { s.status with busy := true, rqPart := false } }

/-- R130, R223 (D7): INIT with any other number of rows raises BAD_LINE_COUNT before any effect. -/
def Obligations.InitRefusesOtherRowCounts : Prop :=
  ∀ (s : State) (w : BusWidth) (columns rows : Byte), s.Ready w → rows ≠ 1 → rows ≠ 2 →
    exec (.init columns rows) s = .next { s with
      rq := []
      status := { s.status with fault := true, rqPart := false }
      errcode := 0x02
      errinfo := 0x01 }

/-! ## Display operations -/

/-- R150: CLEAR. Its encoding, no validation, its events and then BUSY until the Wait is performed. -/
def Obligations.ClearSendsItsCommandAndWaits : Prop :=
  decode (.request [0x02]) = .ok .clear ∧
  (∀ (s : State) (w : BusWidth), s.Ready w →
    exec .clear s = .next { s with
      rq := []
      curop := 0x02
      seq := writeCommand s.config w 0x01 ++ [.wait s.config.tClear]
      status := { s.status with busy := true, rqPart := false } }) ∧
  (∀ s : State, s.seq = [.wait s.config.tClear] → s.blockStep.status.busy = false)

/-- R151: HOME. Its encoding, no validation, its events and then BUSY until the Wait is performed; and what its command
latches on the bus: with N = 4 the nibbles 0x0 and 0x2, with N = 8 the byte, with RS = 0. -/
def Obligations.HomeSendsItsCommandAndWaits : Prop :=
  decode (.request [0x03]) = .ok .home ∧
  (∀ (s : State) (w : BusWidth), s.Ready w →
    exec .home s = .next { s with
      rq := []
      curop := 0x03
      seq := writeCommand s.config w 0x02 ++ [.wait s.config.tHome]
      status := { s.status with busy := true, rqPart := false } }) ∧
  (∀ s : State, s.seq = [.wait s.config.tHome] → s.blockStep.status.busy = false) ∧
  (∀ (c : Config) (l : Lines), l.e = false →
    (l.d.length = 4 → transcript l (writeCommand c .four 0x02) =
      [(false, [false, false, false, false]), (false, [false, true, false, false])]) ∧
    (l.d.length = 8 → transcript l (writeCommand c .eight 0x02) =
      [(false, [false, true, false, false, false, false, false, false])]))

/-- R110, R152 (D10): MOVE sends `0x80 + row*0x40 + column`, a byte of 0x80 to 0xFF, which is the bit pattern
`1 r cccccc` of R76. -/
def Obligations.MoveSendsTheCursorAddress : Prop :=
  ∀ (s : State) (w : BusWidth) (column : BitVec 6) (row : Bool), s.Ready w →
    let address : Byte := 0b1#1 ++ BitVec.ofBool row ++ column
    address.toNat = 0x80 + row.toNat * 0x40 + column.toNat ∧
    exec (.move (column.zeroExtend 8) (if row then 1 else 0)) s = .next { s with
      rq := []
      curop := 0x04
      seq := writeCommand s.config w address
      status := { s.status with busy := true, rqPart := false } }

/-- R152, R225 (D10, D17): MOVE checks the row first, then the column. -/
def Obligations.MoveChecksRowThenColumn : Prop :=
  ∀ (s : State) (w : BusWidth) (column row : Byte), s.Ready w → (1 < row ∨ 0x3F < column) →
    exec (.move column row) s = .next { s with
      rq := []
      status := { s.status with fault := true, rqPart := false }
      errcode := if 1 < row then 0x04 else 0x05
      errinfo := 0x04 }

/-- R153 (D28): PRINT sends every byte of its text as data, unchanged and in order; an empty text completes at acceptance,
with BUSY staying 0. -/
def Obligations.PrintSendsItsBytesInOrder : Prop :=
  ∀ (s : State) (w : BusWidth) (text : List Byte), s.Ready w → s.seq = [] →
    exec (.print text) s = .next { s with
      rq := []
      curop := 0x05
      seq := (text.map (writeData s.config w)).flatten
      status := { s.status with busy := !text.isEmpty, rqPart := false } }

/-- R154 (D11, D26, D27): CGLYPH sends the address command of its glyph, then its eight rows as data. -/
def Obligations.CglyphSendsAddressAndRows : Prop :=
  ∀ (s : State) (w : BusWidth) (i : BitVec 3) (p0 p1 p2 p3 p4 p5 p6 p7 : Byte), s.Ready w →
    exec (.cglyph (i.zeroExtend 8) p0 p1 p2 p3 p4 p5 p6 p7) s = .next { s with
      rq := []
      curop := 0x06
      seq := writeCommand s.config w s.config.cgramCmd[i.toFin]
        ++ writeData s.config w p0 ++ writeData s.config w p1 ++ writeData s.config w p2 ++ writeData s.config w p3
        ++ writeData s.config w p4 ++ writeData s.config w p5 ++ writeData s.config w p6 ++ writeData s.config w p7
      status := { s.status with busy := true, rqPart := false } }

/-- R155 (D11): SGLYPH sends the glyph's index as data, the same events as PRINT of that byte. -/
def Obligations.SglyphPrintsItsIndex : Prop :=
  ∀ (s : State) (w : BusWidth) (i : BitVec 3), s.Ready w →
    exec (.sglyph (i.zeroExtend 8)) s = .next { s with
      rq := []
      curop := 0x07
      seq := writeData s.config w (i.zeroExtend 8)
      status := { s.status with busy := true, rqPart := false } } ∧
    ∃ t u, exec (.sglyph (i.zeroExtend 8)) s = .next t ∧ exec (.print [i.zeroExtend 8]) s = .next u ∧
      t.seq = u.seq

/-- R154, R155, R223 (D11): a glyph index above 7 raises BAD_GLYPH_INDEX. -/
def Obligations.GlyphIndexAboveSevenFaults : Prop :=
  ∀ (s : State) (w : BusWidth) (idx p0 p1 p2 p3 p4 p5 p6 p7 : Byte), s.Ready w → 7 < idx →
    let after (op : Byte) : State :=
      { s with
        rq := []
        status := { s.status with fault := true, rqPart := false }
        errcode := 0x06
        errinfo := op }
    exec (.cglyph idx p0 p1 p2 p3 p4 p5 p6 p7) s = .next (after 0x06) ∧ exec (.sglyph idx) s = .next (after 0x07)

/-! ## The frame of the requests and of the bus traffic -/

/-- R31, R111, R156, R223: what a request leaves unchanged when it answers a next state. The parameters, the lines, the
trace and the host's own fields always; each shadow but for the requests that set a flag of it; ERRCODE and ERRINFO
but at fault entry; INITDONE always. -/
def Obligations.RequestsLeaveTheRestAlone : Prop :=
  ∀ (i : Instr) (bytes : List Byte) (s t : State), encode i = .request bytes → exec i s = .next t →
    t.config = s.config ∧ t.lines = s.lines ∧ t.tr = s.tr ∧ t.draws = s.draws ∧ t.host = s.host ∧
    t.answers = s.answers ∧ t.status.initDone = s.status.initDone ∧
    (t.status.fault = s.status.fault → t.errcode = s.errcode ∧ t.errinfo = s.errinfo) ∧
    (t.status.fault ≠ s.status.fault →
      t.fs = s.fs ∧ t.dc = s.dc ∧ t.dm = s.dm ∧ t.seq = s.seq ∧ t.curop = s.curop ∧
        t.status.busy = s.status.busy) ∧
    (∀ k < 8,
      t.fs.getLsbD k ≠ s.fs.getLsbD k →
        (k = 4 ∧ ∃ w, i = .setbw w) ∨ (k = 3 ∧ ((∃ n, i = .setlines n) ∨ ∃ c r, i = .init c r)) ∨
          (k = 2 ∧ ∃ f, i = .setfont f)) ∧
    (∀ k < 8,
      t.dc.getLsbD k ≠ s.dc.getLsbD k →
        (k = 2 ∧ ∃ b, i = .setdisp b) ∨ (k = 1 ∧ ∃ b, i = .setcurs b) ∨ (k = 0 ∧ ∃ b, i = .setblink b)) ∧
    (∀ k < 8,
      t.dm.getLsbD k ≠ s.dm.getLsbD k → (k = 1 ∧ ∃ b, i = .setdir b) ∨ (k = 0 ∧ ∃ b, i = .setshift b))

/-- R76, R77, R185, R186: the rows of byte writes append their byte's events to the pending list, with the bytes written
out from the bit patterns of R76 (RS = 0) and R77 (RS = 1); nothing else changes but BUSY. Two things are the model's
choice: that a row appends its events and sets BUSY (assumption 1), and that W.FUNCTIONSET takes either L on either bus
width, where R79 has bit 4 follow N, and W.CGRAMADDR the parameter CGRAM_CMD (assumption 16). -/
def Obligations.WireRowsEmitTheirByte : Prop :=
  ∀ (s : State) (w : BusWidth) (x y z : Bool) (g : BitVec 3) (c : BitVec 6) (d : Byte),
    s.config.width? = some w → s.status.fault = false →
    let after (rs : Bool) (b : Byte) : State :=
      { s with seq := s.seq ++ writeByte s.config w rs b, status := { s.status with busy := true } }
    exec .wClearDisplay s = .next (after false 0b00000001) ∧
    exec .wReturnHome s = .next (after false 0b00000010) ∧
    exec (.wDisplayMode x y) s = .next (after false (0b000001#6 ++ BitVec.ofBool x ++ BitVec.ofBool y)) ∧
    exec (.wDisplayControl x y z) s =
      .next (after false (0b00001#5 ++ BitVec.ofBool x ++ BitVec.ofBool y ++ BitVec.ofBool z)) ∧
    exec (.wFunctionSet x y z) s =
      .next (after false (0b001#3 ++ BitVec.ofBool x ++ BitVec.ofBool y ++ BitVec.ofBool z ++ 0b00#2)) ∧
    exec (.wCgramAddr g) s = .next (after false s.config.cgramCmd[g.toFin]) ∧
    exec (.wDdramAddr x c) s = .next (after false (0b1#1 ++ BitVec.ofBool x ++ c)) ∧
    exec (.wData d) s = .next (after true d)

/-- R78, R132: an initialisation nibble is one transfer with RS = 0. RS is driven low first only where it would be high;
that drive is the model's choice (assumption 10). With N = 8 there is no such row. -/
def Obligations.WireNibblesAreLoneTransfers : Prop :=
  (∀ s : State, s.config.width? = some .four → s.status.fault = false →
    let after (v : Nibble) : State :=
      { s with
        seq := s.seq ++ ((if (s.lines.applyAll s.seq).rs then [.drive .rs false] else []) ++ transfer s.config v)
        status := { s.status with busy := true } }
    exec .wInitNibble3 s = .next (after 0x3) ∧ exec .wInitNibble2 s = .next (after 0x2)) ∧
  (∀ s : State, s.config.width? = some .eight → s.status.fault = false →
    exec .wInitNibble3 s = .refused .nibbleNeedsFourLines ∧
    exec .wInitNibble2 s = .refused .nibbleNeedsFourLines)

/-! ## The bus -/

/-- R55, R182 (D22): the events of a transfer, for both bus widths. -/
def Obligations.TransferIsItsEventList : Prop :=
  ∀ (c : Config) (v : Nibble) (b : Byte),
    let pulse : List BusEvent :=
      [.drive .e false, .wait c.tEnLow, .drive .e true, .wait c.tEnHigh, .drive .e false, .wait c.tSettle]
    transfer c v =
      [.drive (.d 0) (v.getLsbD 0), .drive (.d 1) (v.getLsbD 1), .drive (.d 2) (v.getLsbD 2),
        .drive (.d 3) (v.getLsbD 3)] ++ pulse ∧
    transfer c b =
      [.drive (.d 0) (b.getLsbD 0), .drive (.d 1) (b.getLsbD 1), .drive (.d 2) (b.getLsbD 2),
        .drive (.d 3) (b.getLsbD 3), .drive (.d 4) (b.getLsbD 4), .drive (.d 5) (b.getLsbD 5),
        .drive (.d 6) (b.getLsbD 6), .drive (.d 7) (b.getLsbD 7)] ++ pulse

/-- R55 (and R183, R188): from E low, a transfer latches its value, line D[i] carrying bit i, once; RS keeps its level, and E is
low again. -/
def Obligations.TransferLatchesItsValueOnce : Prop :=
  ∀ (c : Config) (n : Nat) (v : BitVec n) (l : Lines), l.d.length = n → l.e = false →
    let levels := (List.range n).map v.getLsbD
    transcript l (transfer c v) = [(l.rs, levels)] ∧ l.applyAll (transfer c v) = { l with d := levels }

/-- R56: with N = 4 a byte goes out as two transfers, its high nibble first; with N = 8 as one. No state of the block plays a
part in the order. -/
def Obligations.HighNibbleGoesFirst : Prop :=
  ∀ (c : Config) (w : BusWidth) (rs : Bool) (b : Byte) (l : Lines), l.d.length = w.lines → l.e = false →
    transcript l (writeByte c w rs b) =
      match w with
      | .four =>
        [(rs, [b.getLsbD 4, b.getLsbD 5, b.getLsbD 6, b.getLsbD 7]),
          (rs, [b.getLsbD 0, b.getLsbD 1, b.getLsbD 2, b.getLsbD 3])]
      | .eight =>
        [(rs, [b.getLsbD 0, b.getLsbD 1, b.getLsbD 2, b.getLsbD 3,
          b.getLsbD 4, b.getLsbD 5, b.getLsbD 6, b.getLsbD 7])]

/-- R185 (D22): a byte write drives RS once, before its transfers. -/
def Obligations.ByteWriteIsItsTransfers : Prop :=
  ∀ (c : Config) (rs : Bool) (b : Byte),
    writeByte c .four rs b =
      [.drive .rs rs] ++ transfer c (b.extractLsb' 4 4 : Nibble) ++ transfer c (b.extractLsb' 0 4 : Nibble) ∧
    writeByte c .eight rs b = [.drive .rs rs] ++ transfer c b ∧
    (writeByte c .four rs b).length = 21 ∧ (writeByte c .eight rs b).length = 15

/-! ## Timing -/

/-- R138: the least gaps between the transfers of the initialisation, for any parameters; with the defaults they are the
table of R138. -/
def Obligations.InitGapsAreKept : Prop :=
  ∀ (c : Config) (fs dc dm : Byte),
    let pulse := c.tEnLow + c.tEnHigh
    (transferGaps (initEvents c .four fs dc dm)).take 3 =
      [ ⟨c.tSettle + c.tInitA + c.tEnLow, c.tSettle + c.tInitA + pulse⟩,
        ⟨c.tSettle + c.tInitB + c.tEnLow, c.tSettle + c.tInitB + pulse⟩,
        ⟨c.tSettle + c.tInitC + c.tEnLow, c.tSettle + c.tInitC + pulse⟩ ] ∧
    (transferGaps (initEvents c .eight fs dc dm)).take 3 =
      [ ⟨c.tSettle + c.tInitA + c.tEnLow, c.tSettle + c.tInitA + pulse⟩,
        ⟨c.tSettle + c.tInitC + c.tEnLow, c.tSettle + c.tInitC + pulse⟩,
        ⟨c.tSettle + c.tEnLow, c.tSettle + pulse⟩ ]

/-- R190, R260: with the default parameters, the least duration of every request, and its number of events. -/
def Obligations.RequestsTakeTheirLeastTime : Prop :=
  ∀ (fs dc dm a : Byte) (i : Fin 8) (text rows : List Byte), rows.length = 8 →
    let four := Config.ardt 4
    let eight := Config.ardt 8
    let cost (events : List BusEvent) := (minDuration events, events.length)
    cost (initEvents four .four fs dc dm) = (10170, 107) ∧ cost (initEvents eight .eight fs dc dm) = (5262, 92) ∧
    cost (clearEvents four .four) = (2204, 22) ∧ cost (clearEvents eight .eight) = (2102, 16) ∧
    cost (homeEvents four .four) = (2204, 22) ∧ cost (homeEvents eight .eight) = (2102, 16) ∧
    cost (writeCommand four .four a) = (204, 21) ∧ cost (writeCommand eight .eight a) = (102, 15) ∧
    cost (writeData four .four a) = (204, 21) ∧ cost (writeData eight .eight a) = (102, 15) ∧
    cost (printEvents four .four text) = (204 * text.length, 21 * text.length) ∧
    cost (printEvents eight .eight text) = (102 * text.length, 15 * text.length) ∧
    cost (cglyphEvents four .four i rows) = (1836, 189) ∧ cost (cglyphEvents eight .eight i rows) = (918, 135)

/-! ## The receiver reference (PRESUMED: the spec gives it as general knowledge, assumptions 19 to 22, 24 to 27) -/

/-- R201: a receiver in phase gets every byte the block writes, with its RS level. -/
def Obligations.ReceiverInPhaseGetsEveryByte : Prop :=
  ∀ (c : Config) (w : BusWidth) (r : Receiver) (l : Lines) (rs : Bool) (b : Byte),
    c.wiring = (Config.ardt w.lines).wiring → l.d.length = w.lines → l.e = false →
    r.eightBit = decide (w = .eight) → r.high = none →
    Receiver.observe c r l (writeByte c w rs b) =
      { r with latches := r.latches + (if w = BusWidth.four then 2 else 1) }.act rs b

/-- R202: whatever state the receiver starts in, INIT leaves it in the block's bus mode and in phase, with the flags of
FS, DC and DM. Of the hardware it is to be claimed only where the host waited T_POWERON before INIT (R130, D21): the
observer acts whatever the power-on time, which is the model's choice (assumption 27). -/
def Obligations.InitSynchronisesEveryReceiver : Prop :=
  ∀ (s t : State) (w : BusWidth) (columns rows : Byte) (r : Receiver), s.Inv → s.Ready w →
    s.config.wiring = (Config.ardt w.lines).wiring → (rows = 1 ∨ rows = 2) →
    exec (.init columns rows) s = .next t →
    let r' := Receiver.observe s.config r s.lines t.seq
    r'.eightBit = decide (w = .eight) ∧ r'.high = none ∧
    r'.twoLine = decide (rows = 2) ∧ r'.tallFont = s.fs.getLsbD 2 ∧
    r'.displayOn = s.dc.getLsbD 2 ∧ r'.cursorOn = s.dc.getLsbD 1 ∧ r'.blinkOn = s.dc.getLsbD 0 ∧
    r'.entryLeft = s.dm.getLsbD 1 ∧ r'.entryShift = s.dm.getLsbD 0

/-! ## The assembler -/

/-- R81: a PRINT of any length is a sequence of encodable PRINTs, all but the last of 255 bytes, with the same bus events
as one long print. -/
def Obligations.LongPrintIsSplitUnseen : Prop :=
  ∀ (c : Config) (w : BusWidth) (text : List Byte),
    ∃ parts : List (List Byte), printRequests text = parts.map Instr.print ∧
      (∀ part ∈ parts, part.length ≤ 255) ∧ (∀ part ∈ parts.dropLast, part.length = 255) ∧
      (parts.map (printEvents c w)).flatten = printEvents c w text
end

