-- ==== Sys2Proof/Laws/Decode.lean ====
section
/-! SUPPORT. Small lemmas of the decoder. -/

namespace Sys2Proof

@[simp] theorem Opcode.ofByte_code (o : Opcode) : Opcode.ofByte o.code = some o := by
  cases o <;> rfl

/-- A byte that assigns an opcode is that opcode's byte. -/
theorem Opcode.code_of_ofByte {b : Byte} {o : Opcode} (h : Opcode.ofByte b = some o) : o.code = b := by
  simpa using List.find?_some h

/-- R72, R73: an assigned opcode hands the bytes after it to its format. -/
@[simp] theorem decodeRequest_code (o : Opcode) (operands : List Byte) :
    decodeRequest (o.code :: operands) = o.parse operands := by
  simp [decodeRequest]

theorem decodeRequest_of_ofByte {op : Byte} {o : Opcode} (h : Opcode.ofByte op = some o) (operands : List Byte) :
    decodeRequest (op :: operands) = o.parse operands := by
  simp [decodeRequest, h]

/-- R73: a reserved opcode is found at the first byte. -/
theorem decodeRequest_of_reserved {op : Byte} (h : Opcode.ofByte op = none) (operands : List Byte) :
    decodeRequest (op :: operands) = .reserved op := by
  simp [decodeRequest, h]

/-- Only requests are read from the request stream. -/
theorem requestBytes_of_decodeRequest {bytes rest : List Byte} {i : Instr}
    (h : decodeRequest bytes = .complete i rest) : ∃ words, requestBytes i = some words := by
  rcases bytes with _ | ⟨op, operands⟩
  · cases h
  · rcases ho : Opcode.ofByte op with _ | o
    · rw [decodeRequest_of_reserved ho] at h; cases h
    · rw [decodeRequest_of_ofByte ho] at h
      cases o <;> simp only [Opcode.parse, Opcode.parse.one] at h <;> (repeat' split at h) <;> cases h <;>
        exact ⟨_, rfl⟩

@[simp] theorem decodeRequest_nil : decodeRequest [] = .incomplete := rfl

end Sys2Proof
end

