-- ==== Sys2Proof/Laws/State.lean ====
section
/-! SUPPORT. What each update of the state does to each field, so that no later proof unfolds a record update. -/

namespace Sys2Proof.Machine

/-! ## `perform` -/

@[simp] theorem State.perform_config (s : State) (event : BusEvent) : (s.perform event).config = s.config := rfl
@[simp] theorem State.perform_lines (s : State) (event : BusEvent) : (s.perform event).lines = s.lines.apply event := rfl
@[simp] theorem State.perform_fs (s : State) (event : BusEvent) : (s.perform event).fs = s.fs := rfl
@[simp] theorem State.perform_dc (s : State) (event : BusEvent) : (s.perform event).dc = s.dc := rfl
@[simp] theorem State.perform_dm (s : State) (event : BusEvent) : (s.perform event).dm = s.dm := rfl
@[simp] theorem State.perform_status (s : State) (event : BusEvent) : (s.perform event).status = s.status := rfl
@[simp] theorem State.perform_errcode (s : State) (event : BusEvent) : (s.perform event).errcode = s.errcode := rfl
@[simp] theorem State.perform_errinfo (s : State) (event : BusEvent) : (s.perform event).errinfo = s.errinfo := rfl
@[simp] theorem State.perform_seq (s : State) (event : BusEvent) : (s.perform event).seq = s.seq := rfl
@[simp] theorem State.perform_curop (s : State) (event : BusEvent) : (s.perform event).curop = s.curop := rfl
@[simp] theorem State.perform_rq (s : State) (event : BusEvent) : (s.perform event).rq = s.rq := rfl
@[simp] theorem State.perform_tr (s : State) (event : BusEvent) : (s.perform event).tr = s.tr ++ [{ event := event, draw := s.draws }] := rfl
@[simp] theorem State.perform_draws (s : State) (event : BusEvent) : (s.perform event).draws = s.draws + 1 := rfl
@[simp] theorem State.perform_host (s : State) (event : BusEvent) : (s.perform event).host = s.host := rfl
@[simp] theorem State.perform_answers (s : State) (event : BusEvent) : (s.perform event).answers = s.answers := rfl

/-! ## `complete` -/

@[simp] theorem State.complete_config (s : State) : (s.complete).config = s.config := rfl
@[simp] theorem State.complete_lines (s : State) : (s.complete).lines = s.lines := rfl
@[simp] theorem State.complete_fs (s : State) : (s.complete).fs = s.fs := rfl
@[simp] theorem State.complete_dc (s : State) : (s.complete).dc = s.dc := rfl
@[simp] theorem State.complete_dm (s : State) : (s.complete).dm = s.dm := rfl
@[simp] theorem State.complete_status (s : State) : (s.complete).status = { s.status with busy := false, initDone := s.status.initDone || s.curop == Opcode.init.code } := rfl
@[simp] theorem State.complete_errcode (s : State) : (s.complete).errcode = s.errcode := rfl
@[simp] theorem State.complete_errinfo (s : State) : (s.complete).errinfo = s.errinfo := rfl
@[simp] theorem State.complete_seq (s : State) : (s.complete).seq = s.seq := rfl
@[simp] theorem State.complete_curop (s : State) : (s.complete).curop = s.curop := rfl
@[simp] theorem State.complete_rq (s : State) : (s.complete).rq = s.rq := rfl
@[simp] theorem State.complete_tr (s : State) : (s.complete).tr = s.tr := rfl
@[simp] theorem State.complete_draws (s : State) : (s.complete).draws = s.draws := rfl
@[simp] theorem State.complete_host (s : State) : (s.complete).host = s.host := rfl
@[simp] theorem State.complete_answers (s : State) : (s.complete).answers = s.answers := rfl

/-! ## `emit` -/

@[simp] theorem State.emit_config (s : State) (events : List BusEvent) : (s.emit events).config = s.config := rfl
@[simp] theorem State.emit_lines (s : State) (events : List BusEvent) : (s.emit events).lines = s.lines := rfl
@[simp] theorem State.emit_fs (s : State) (events : List BusEvent) : (s.emit events).fs = s.fs := rfl
@[simp] theorem State.emit_dc (s : State) (events : List BusEvent) : (s.emit events).dc = s.dc := rfl
@[simp] theorem State.emit_dm (s : State) (events : List BusEvent) : (s.emit events).dm = s.dm := rfl
@[simp] theorem State.emit_status (s : State) (events : List BusEvent) : (s.emit events).status = { s.status with busy := true } := rfl
@[simp] theorem State.emit_errcode (s : State) (events : List BusEvent) : (s.emit events).errcode = s.errcode := rfl
@[simp] theorem State.emit_errinfo (s : State) (events : List BusEvent) : (s.emit events).errinfo = s.errinfo := rfl
@[simp] theorem State.emit_seq (s : State) (events : List BusEvent) : (s.emit events).seq = s.seq ++ events := rfl
@[simp] theorem State.emit_curop (s : State) (events : List BusEvent) : (s.emit events).curop = s.curop := rfl
@[simp] theorem State.emit_rq (s : State) (events : List BusEvent) : (s.emit events).rq = s.rq := rfl
@[simp] theorem State.emit_tr (s : State) (events : List BusEvent) : (s.emit events).tr = s.tr := rfl
@[simp] theorem State.emit_draws (s : State) (events : List BusEvent) : (s.emit events).draws = s.draws := rfl
@[simp] theorem State.emit_host (s : State) (events : List BusEvent) : (s.emit events).host = s.host := rfl
@[simp] theorem State.emit_answers (s : State) (events : List BusEvent) : (s.emit events).answers = s.answers := rfl

/-! ## `raise` -/

@[simp] theorem State.raise_config (s : State) (error : ConfigError) (opcode : Byte) : (s.raise error opcode).config = s.config := rfl
@[simp] theorem State.raise_lines (s : State) (error : ConfigError) (opcode : Byte) : (s.raise error opcode).lines = s.lines := rfl
@[simp] theorem State.raise_fs (s : State) (error : ConfigError) (opcode : Byte) : (s.raise error opcode).fs = s.fs := rfl
@[simp] theorem State.raise_dc (s : State) (error : ConfigError) (opcode : Byte) : (s.raise error opcode).dc = s.dc := rfl
@[simp] theorem State.raise_dm (s : State) (error : ConfigError) (opcode : Byte) : (s.raise error opcode).dm = s.dm := rfl
@[simp] theorem State.raise_status (s : State) (error : ConfigError) (opcode : Byte) : (s.raise error opcode).status = { s.status with fault := true, rqPart := false } := rfl
@[simp] theorem State.raise_errcode (s : State) (error : ConfigError) (opcode : Byte) : (s.raise error opcode).errcode = error.code := rfl
@[simp] theorem State.raise_errinfo (s : State) (error : ConfigError) (opcode : Byte) : (s.raise error opcode).errinfo = opcode := rfl
@[simp] theorem State.raise_seq (s : State) (error : ConfigError) (opcode : Byte) : (s.raise error opcode).seq = s.seq := rfl
@[simp] theorem State.raise_curop (s : State) (error : ConfigError) (opcode : Byte) : (s.raise error opcode).curop = s.curop := rfl
@[simp] theorem State.raise_rq (s : State) (error : ConfigError) (opcode : Byte) : (s.raise error opcode).rq = [] := rfl
@[simp] theorem State.raise_tr (s : State) (error : ConfigError) (opcode : Byte) : (s.raise error opcode).tr = s.tr := rfl
@[simp] theorem State.raise_draws (s : State) (error : ConfigError) (opcode : Byte) : (s.raise error opcode).draws = s.draws := rfl
@[simp] theorem State.raise_host (s : State) (error : ConfigError) (opcode : Byte) : (s.raise error opcode).host = s.host := rfl
@[simp] theorem State.raise_answers (s : State) (error : ConfigError) (opcode : Byte) : (s.raise error opcode).answers = s.answers := rfl

/-! ## `rebuild` -/

@[simp] theorem State.rebuild_config (s : State) : (s.rebuild).config = (State.construct s.config).config := rfl
@[simp] theorem State.rebuild_lines (s : State) : (s.rebuild).lines = (State.construct s.config).lines := rfl
@[simp] theorem State.rebuild_fs (s : State) : (s.rebuild).fs = (State.construct s.config).fs := rfl
@[simp] theorem State.rebuild_dc (s : State) : (s.rebuild).dc = (State.construct s.config).dc := rfl
@[simp] theorem State.rebuild_dm (s : State) : (s.rebuild).dm = (State.construct s.config).dm := rfl
@[simp] theorem State.rebuild_status (s : State) : (s.rebuild).status = (State.construct s.config).status := rfl
@[simp] theorem State.rebuild_errcode (s : State) : (s.rebuild).errcode = (State.construct s.config).errcode := rfl
@[simp] theorem State.rebuild_errinfo (s : State) : (s.rebuild).errinfo = (State.construct s.config).errinfo := rfl
@[simp] theorem State.rebuild_seq (s : State) : (s.rebuild).seq = (State.construct s.config).seq := rfl
@[simp] theorem State.rebuild_curop (s : State) : (s.rebuild).curop = (State.construct s.config).curop := rfl
@[simp] theorem State.rebuild_rq (s : State) : (s.rebuild).rq = (State.construct s.config).rq := rfl
@[simp] theorem State.rebuild_tr (s : State) : (s.rebuild).tr = (State.construct s.config).tr := rfl
@[simp] theorem State.rebuild_draws (s : State) : (s.rebuild).draws = s.draws := rfl
@[simp] theorem State.rebuild_host (s : State) : (s.rebuild).host = s.host := rfl
@[simp] theorem State.rebuild_answers (s : State) : (s.rebuild).answers = s.answers := rfl

/-! ## `accept` -/

@[simp] theorem State.accept_config (s : State) (op : Opcode) (events : List BusEvent) : (s.accept op events).config = s.config := by cases events <;> rfl
@[simp] theorem State.accept_lines (s : State) (op : Opcode) (events : List BusEvent) : (s.accept op events).lines = s.lines := by cases events <;> rfl
@[simp] theorem State.accept_fs (s : State) (op : Opcode) (events : List BusEvent) : (s.accept op events).fs = s.fs := by cases events <;> rfl
@[simp] theorem State.accept_dc (s : State) (op : Opcode) (events : List BusEvent) : (s.accept op events).dc = s.dc := by cases events <;> rfl
@[simp] theorem State.accept_dm (s : State) (op : Opcode) (events : List BusEvent) : (s.accept op events).dm = s.dm := by cases events <;> rfl
@[simp] theorem State.accept_errcode (s : State) (op : Opcode) (events : List BusEvent) : (s.accept op events).errcode = s.errcode := by cases events <;> rfl
@[simp] theorem State.accept_errinfo (s : State) (op : Opcode) (events : List BusEvent) : (s.accept op events).errinfo = s.errinfo := by cases events <;> rfl
@[simp] theorem State.accept_curop (s : State) (op : Opcode) (events : List BusEvent) : (s.accept op events).curop = op.code := by cases events <;> rfl
@[simp] theorem State.accept_rq (s : State) (op : Opcode) (events : List BusEvent) : (s.accept op events).rq = [] := by cases events <;> rfl
@[simp] theorem State.accept_tr (s : State) (op : Opcode) (events : List BusEvent) : (s.accept op events).tr = s.tr := by cases events <;> rfl
@[simp] theorem State.accept_draws (s : State) (op : Opcode) (events : List BusEvent) : (s.accept op events).draws = s.draws := by cases events <;> rfl
@[simp] theorem State.accept_host (s : State) (op : Opcode) (events : List BusEvent) : (s.accept op events).host = s.host := by cases events <;> rfl
@[simp] theorem State.accept_answers (s : State) (op : Opcode) (events : List BusEvent) : (s.accept op events).answers = s.answers := by cases events <;> rfl

/-- The event list of an accepted request is pending, if it is not empty (R31). -/
theorem State.accept_seq (s : State) (op : Opcode) (events : List BusEvent) :
    (s.accept op events).seq = if events = [] then s.seq else events := by
  cases events <;> rfl

@[simp] theorem State.accept_busy (s : State) (op : Opcode) (events : List BusEvent) :
    (s.accept op events).status.busy = !events.isEmpty := by
  cases events <;> rfl

@[simp] theorem State.accept_fault (s : State) (op : Opcode) (events : List BusEvent) :
    (s.accept op events).status.fault = s.status.fault := by
  cases events <;> rfl

@[simp] theorem State.accept_rqPart (s : State) (op : Opcode) (events : List BusEvent) :
    (s.accept op events).status.rqPart = false := by
  cases events <;> rfl

theorem State.accept_initDone (s : State) (op : Opcode) (events : List BusEvent) :
    (s.accept op events).status.initDone = (s.status.initDone || (events.isEmpty && op.code == Opcode.init.code)) := by
  cases events <;> simp [State.accept, State.complete]

/-! ## `blockStep` -/

@[simp] theorem State.blockStep_config (s : State) : s.blockStep.config = s.config := by
  unfold State.blockStep; split <;> rfl
@[simp] theorem State.blockStep_fs (s : State) : s.blockStep.fs = s.fs := by
  unfold State.blockStep; split <;> rfl
@[simp] theorem State.blockStep_dc (s : State) : s.blockStep.dc = s.dc := by
  unfold State.blockStep; split <;> rfl
@[simp] theorem State.blockStep_dm (s : State) : s.blockStep.dm = s.dm := by
  unfold State.blockStep; split <;> rfl
@[simp] theorem State.blockStep_errcode (s : State) : s.blockStep.errcode = s.errcode := by
  unfold State.blockStep; split <;> rfl
@[simp] theorem State.blockStep_errinfo (s : State) : s.blockStep.errinfo = s.errinfo := by
  unfold State.blockStep; split <;> rfl
@[simp] theorem State.blockStep_curop (s : State) : s.blockStep.curop = s.curop := by
  unfold State.blockStep; split <;> rfl
@[simp] theorem State.blockStep_rq (s : State) : s.blockStep.rq = s.rq := by
  unfold State.blockStep; split <;> rfl
@[simp] theorem State.blockStep_host (s : State) : s.blockStep.host = s.host := by
  unfold State.blockStep; split <;> rfl
@[simp] theorem State.blockStep_answers (s : State) : s.blockStep.answers = s.answers := by
  unfold State.blockStep; split <;> rfl
@[simp] theorem State.blockStep_fault (s : State) : s.blockStep.status.fault = s.status.fault := by
  unfold State.blockStep; split <;> rfl
@[simp] theorem State.blockStep_rqPart (s : State) : s.blockStep.status.rqPart = s.status.rqPart := by
  unfold State.blockStep; split <;> rfl

/-! ## `Lines.apply` -/

@[simp] theorem Lines.apply_wait (l : Lines) (t : Nat) : l.apply (.wait t) = l := rfl
@[simp] theorem Lines.apply_rs (l : Lines) (v : Bool) : l.apply (.drive .rs v) = { l with rs := v } := rfl
@[simp] theorem Lines.apply_e (l : Lines) (v : Bool) : l.apply (.drive .e v) = { l with e := v } := rfl
@[simp] theorem Lines.apply_d (l : Lines) (i : Nat) (v : Bool) :
    l.apply (.drive (.d i) v) = { l with d := l.d.set i v } := rfl
@[simp] theorem Lines.applyAll_nil (l : Lines) : l.applyAll [] = l := rfl
@[simp] theorem Lines.applyAll_cons (l : Lines) (event : BusEvent) (events : List BusEvent) :
    l.applyAll (event :: events) = (l.apply event).applyAll events := rfl
@[simp] theorem Lines.applyAll_append (l : Lines) (xs ys : List BusEvent) :
    l.applyAll (xs ++ ys) = (l.applyAll xs).applyAll ys := by
  simp [Lines.applyAll]
@[simp] theorem Lines.replay_nil (l : Lines) : l.replay [] = l := rfl
@[simp] theorem Lines.replay_append (l : Lines) (xs ys : List Performed) :
    l.replay (xs ++ ys) = (l.replay xs).replay ys := by
  simp [Lines.replay, Lines.applyAll]

end Sys2Proof.Machine
end

