-- ==== Sys2Proof/Laws/Ops.lean ====
section
/-! SUPPORT. One lemma for each shared operation, saying once everything it can do. -/

namespace Sys2Proof.Machine

/-! ## Operands -/

theorem boolOperand_eq_ok {b : Byte} {v : Bool} : boolOperand b = .ok v ↔ b = BitVec.ofNat 8 v.toNat := by
  unfold boolOperand; cases v <;> simp <;> split <;> simp_all

theorem boolOperand_eq_error {b : Byte} {error : ConfigError} :
    boolOperand b = .error error ↔ (b ≠ 0 ∧ b ≠ 1) ∧ error = .badBool := by
  unfold boolOperand; split <;> (try split) <;> simp_all [@eq_comm ConfigError .badBool]

theorem lineCountOperand_eq_ok {n : Byte} {two : Bool} :
    lineCountOperand n = .ok two ↔ n = if two then 2 else 1 := by
  unfold lineCountOperand; cases two <;> simp <;> split <;> simp_all

theorem lineCountOperand_eq_error {n : Byte} {error : ConfigError} :
    lineCountOperand n = .error error ↔ (n ≠ 1 ∧ n ≠ 2) ∧ error = .badLineCount := by
  unfold lineCountOperand; split <;> (try split) <;> simp_all [eq_comm]

theorem fontOperand_eq_ok {f : Byte} {tall : Bool} : fontOperand f = .ok tall ↔ f = if tall then 0x0B else 0x08 := by
  unfold fontOperand; cases tall <;> simp <;> split <;> simp_all

theorem fontOperand_eq_error {f : Byte} {error : ConfigError} :
    fontOperand f = .error error ↔ (f ≠ 0x08 ∧ f ≠ 0x0B) ∧ error = .badFont := by
  unfold fontOperand; split <;> (try split) <;> simp_all [eq_comm]

theorem glyphIndexOperand_of_lt {idx : Byte} (h : idx.toNat < 8) : glyphIndexOperand idx = .ok ⟨idx.toNat, h⟩ := by
  simp [glyphIndexOperand, h]

theorem glyphIndexOperand_of_ge {idx : Byte} (h : 8 ≤ idx.toNat) : glyphIndexOperand idx = .error .badGlyphIndex := by
  simp [glyphIndexOperand, Nat.not_lt.mpr h]

theorem cursorAddress_of_legal {column row : Byte} (hr : row = 0 ∨ row = 1) (hc : column ≤ 0x3F) :
    cursorAddress column row = .ok (cursorAddressByte column row) := by
  simp only [cursorAddress, if_pos hr, if_pos hc]

/-! ## Bus procedures -/

@[simp] theorem dataDrives_length {n : Nat} (v : BitVec n) : (dataDrives v).length = n := by
  simp [dataDrives]

@[simp] theorem transfer_length (c : Config) {n : Nat} (v : BitVec n) : (transfer c v).length = n + 6 := by
  rw [transfer, List.length_append, dataDrives_length]; rfl

theorem writeByte_length (c : Config) (w : BusWidth) (rs : Bool) (b : Byte) :
    (writeByte c w rs b).length = match w with
      | .four => 21
      | .eight => 15 := by
  cases w <;> simp [writeByte]

theorem writeByte_ne_nil (c : Config) (w : BusWidth) (rs : Bool) (b : Byte) : writeByte c w rs b ≠ [] := by
  simp [writeByte]

theorem initEvents_ne_nil (c : Config) (w : BusWidth) (fs dc dm : Byte) : initEvents c w fs dc dm ≠ [] := by
  cases w <;> simp [initEvents, initEventsFour, initEventsEight, writeCommand, writeByte]

/-- The duration of an event is never below its lower bound (R33). -/
theorem minTime_le_duration (p : Performed) : (p.event.minTime : ℝ) ≤ p.duration :=
  le_max_left _ _

/-- The shadows of a block without a legal width have their hardwired bits, and no other bit is known (R23 to R25). -/
theorem construct_hardwired {c : Config} (h : c.width? = none) :
    (State.construct c).fs &&& 0xE3 = 0x20 ∧ (State.construct c).dc &&& 0xF8 = 0x08 ∧
      (State.construct c).dm &&& 0xFC = 0x04 := by
  have mask : ∀ base keep free : Byte, (base ||| (free &&& keep)) &&& ~~~keep = base &&& ~~~keep := by
    intro base keep free
    ext i
    simp only [BitVec.getElem_and, BitVec.getElem_or, BitVec.getElem_not]
    cases base[i] <;> cases keep[i] <;> cases free[i] <;> rfl
  simp only [State.construct, h, State.raise]
  exact ⟨mask 0x20 0x1C _, mask 0x08 0x07 _, mask 0x04 0x03 _⟩

/-! ## Steps of the block -/

/-- Everything a block step can do (R30, R33). -/
theorem State.blockStep_cases (s : State) :
    (s.seq = [] ∧ s.blockStep = s) ∨
    (∃ event, s.seq = [event] ∧ s.blockStep = { (s.perform event) with seq := [] }.complete) ∨
    (∃ event next rest, s.seq = event :: next :: rest ∧
      s.blockStep = { (s.perform event) with seq := next :: rest }) := by
  unfold State.blockStep
  split
  · exact .inl ⟨‹_›, rfl⟩
  · exact .inr (.inl ⟨_, ‹_›, rfl⟩)
  · exact .inr (.inr ⟨_, _, _, ‹_›, rfl⟩)

/-! ## Requests and bus traffic -/

/-- What a request does on a block that can take it (R31). -/
theorem State.request_of_ready {s : State} {w : BusWidth} (h : s.Ready w) (op : Opcode)
    (plan : BusWidth → Except ConfigError (State × List BusEvent)) :
    s.request op plan =
      match plan w with
      | .error error => .next (s.raise error op.code)
      | .ok (updated, events) => .next (updated.accept op events) := by
  cases hp : plan w <;> simp [State.request, h.fault, h.busy, h.width, hp]

/-- Everything a request can do when it answers a next state. -/
theorem State.request_cases {s t : State} {op : Opcode}
    {plan : BusWidth → Except ConfigError (State × List BusEvent)} (h : s.request op plan = .next t) :
    ((s.status.fault = true ∨ s.config.width? = none) ∧ t = s) ∨
    ∃ w, s.Ready w ∧
      ((∃ error, plan w = .error error ∧ t = s.raise error op.code) ∨
        ∃ updated events, plan w = .ok (updated, events) ∧ t = updated.accept op events) := by
  unfold State.request at h
  split at h
  · rename_i hf; cases h; exact .inl ⟨.inl hf, rfl⟩
  · rename_i hf
    split at h
    · cases h
    · rename_i hb
      split at h
      · rename_i hw; cases h; exact .inl ⟨.inr hw, rfl⟩
      · rename_i w hw
        refine .inr ⟨w, ⟨hw, by simpa using hf, by simpa using hb⟩, ?_⟩
        split at h <;> cases h
        · exact .inl ⟨_, ‹_›, rfl⟩
        · exact .inr ⟨_, _, ‹_›, rfl⟩

/-- What a row of bus traffic does on a block that is not faulted. -/
theorem State.traffic_of_running {s : State} {w : BusWidth} (hw : s.config.width? = some w)
    (hf : s.status.fault = false) (events : BusWidth → Except Refusal (List BusEvent)) :
    s.traffic events =
      match events w with
      | .error reason => .refused reason
      | .ok list => .next (s.emit list) := by
  cases he : events w <;> simp [State.traffic, hf, hw, he]

/-- Everything a row of bus traffic can do when it answers a next state. -/
theorem State.traffic_cases {s t : State} {events : BusWidth → Except Refusal (List BusEvent)}
    (h : s.traffic events = .next t) :
    ((s.status.fault = true ∨ s.config.width? = none) ∧ t = s) ∨
    ∃ w list, s.config.width? = some w ∧ s.status.fault = false ∧ events w = .ok list ∧ t = s.emit list := by
  unfold State.traffic at h
  split at h
  · rename_i hf; cases h; exact .inl ⟨.inl hf, rfl⟩
  · rename_i hf
    split at h
    · rename_i hw; cases h; exact .inl ⟨.inr hw, rfl⟩
    · rename_i w hw
      split at h <;> cases h
      exact .inr ⟨w, _, hw, by simpa using hf, ‹_›, rfl⟩

/-! ## Host accesses and steps -/

/-- Everything a REQ write can do when it answers a next state (R32). -/
theorem State.writeReq_cases {s t : State} {b : Byte} (h : s.writeReq b = .next t) :
    (s.status.fault = true ∧ t = s) ∨
    (s.status.fault = false ∧ s.status.busy = false ∧
      ((decodeRequest (s.rq ++ [b]) = .incomplete ∧
          t = { s with rq := s.rq ++ [b], status := { s.status with rqPart := true } }) ∨
        (∃ op, decodeRequest (s.rq ++ [b]) = .reserved op ∧
          t = { s with rq := s.rq ++ [b] }.raise .badOpcode op) ∨
        ∃ i rest, decodeRequest (s.rq ++ [b]) = .complete i rest ∧
          exec i { s with rq := s.rq ++ [b] } = .next t)) := by
  unfold State.writeReq at h
  split at h
  · rename_i hf; cases h; exact .inl ⟨hf, rfl⟩
  · rename_i hf
    split at h
    · cases h
    · rename_i hb
      refine .inr ⟨by simpa using hf, by simpa using hb, ?_⟩
      simp only at h
      split at h
      · cases h; exact .inl ⟨‹_›, rfl⟩
      · cases h; exact .inr (.inl ⟨_, ‹_›, rfl⟩)
      · exact .inr (.inr ⟨_, _, ‹_›, h⟩)

/-- Everything a step can do when it answers a next state. -/
theorem step_cases {s t : State} (h : step s = .next t) :
    (s.host = [] ∧ t = s.blockStep) ∨
    (∃ rest, s.host = .pass :: rest ∧ t = { s with host := rest }.blockStep) ∨
    (∃ address offset rest, s.host = .read address :: rest ∧ registerOffset s.config address = some offset ∧
      t = { s with host := rest, answers := s.answers ++ [s.readRegister offset] }) ∨
    (∃ address b rest, s.host = .write address b :: rest ∧ registerOffset s.config address = some 0x00 ∧
      s.holdsWrite = true ∧ t = s.blockStep) ∨
    (∃ address b rest, s.host = .write address b :: rest ∧ registerOffset s.config address = some 0x00 ∧
      s.holdsWrite = false ∧ { s with host := rest }.writeReq b = .next t) ∨
    (∃ address b offset rest, s.host = .write address b :: rest ∧
      registerOffset s.config address = some offset ∧ offset ≠ 0x00 ∧ t = { s with host := rest }) ∨
    (∃ rest, s.host = .reset :: rest ∧ t = { s with host := rest }.rebuild) := by
  unfold step State.nextStep at h
  split at h
  · cases h; exact .inl ⟨‹_›, rfl⟩
  · rename_i action rest hs
    unfold State.hostStep at h
    simp only at h
    split at h
    · cases h; exact .inr (.inl ⟨rest, hs, rfl⟩)
    · split at h
      · cases h
      · rename_i ho
        cases h; exact .inr (.inr (.inl ⟨_, _, rest, hs, ho, rfl⟩))
    · split at h
      · cases h
      · rename_i ho
        split at h
        · rename_i h0
          subst h0
          split at h
          · rename_i hh; cases h; exact .inr (.inr (.inr (.inl ⟨_, _, rest, hs, ho, hh, rfl⟩)))
          · rename_i hh
            exact .inr (.inr (.inr (.inr (.inl ⟨_, _, rest, hs, ho, by simpa using hh, h⟩))))
        · rename_i h0
          cases h; exact .inr (.inr (.inr (.inr (.inr (.inl ⟨_, _, _, rest, hs, ho, h0, rfl⟩)))))
    · cases h; exact .inr (.inr (.inr (.inr (.inr (.inr ⟨rest, hs, rfl⟩)))))
    · cases h
    · cases h

end Sys2Proof.Machine
end

