-- ==== Sys2Proof/Laws/Exec.lean ====
section
/-! SUPPORT. What the meanings can do, once for all of them: a request is discarded, faults, or is accepted; a row of
bus traffic is discarded or emitted. And every event list is made of bus items. -/

namespace Sys2Proof.Machine

/-! ## Event lists are made of bus items -/

/-- A list of events is made of bus items. -/
def MadeOfItems (c : Config) (w : BusWidth) (events : List BusEvent) : Prop :=
  ∃ items : List BusItem, events = items.flatMap (BusItem.events c w)

theorem MadeOfItems.nil (c : Config) (w : BusWidth) : MadeOfItems c w [] := ⟨[], rfl⟩

theorem MadeOfItems.item (c : Config) (w : BusWidth) (item : BusItem) : MadeOfItems c w (item.events c w) :=
  ⟨[item], by simp⟩

theorem MadeOfItems.append {c : Config} {w : BusWidth} {xs ys : List BusEvent} :
    MadeOfItems c w xs → MadeOfItems c w ys → MadeOfItems c w (xs ++ ys)
  | ⟨is, hi⟩, ⟨js, hj⟩ => ⟨is ++ js, by simp [hi, hj]⟩

theorem MadeOfItems.flatMap {c : Config} {w : BusWidth} {α : Type} {f : α → List BusEvent}
    (h : ∀ a, MadeOfItems c w (f a)) (as : List α) : MadeOfItems c w (as.flatMap f) := by
  induction as with
  | nil => exact .nil c w
  | cons a as ih => simpa using (h a).append ih

theorem MadeOfItems.command (c : Config) (w : BusWidth) (b : Byte) : MadeOfItems c w (writeCommand c w b) :=
  .item c w (.command b)

theorem MadeOfItems.data (c : Config) (w : BusWidth) (b : Byte) : MadeOfItems c w (writeData c w b) :=
  .item c w (.data b)

theorem MadeOfItems.writeByte (c : Config) (w : BusWidth) (rs : Bool) (b : Byte) :
    MadeOfItems c w (writeByte c w rs b) := by
  cases rs
  · exact .command c w b
  · exact .data c w b

theorem MadeOfItems.nibble (c : Config) (w : BusWidth) (v : Nibble) : MadeOfItems c w (transfer c v) :=
  .item c w (.nibble v)

theorem MadeOfItems.rsLow (c : Config) (w : BusWidth) : MadeOfItems c w [.drive .rs false] :=
  .item c w .rsLow

theorem MadeOfItems.gap (c : Config) (w : BusWidth) (t : Nat) : MadeOfItems c w [.wait t] :=
  .item c w (.gap t)

theorem initEvents_madeOfItems (c : Config) (w : BusWidth) (fs dc dm : Byte) :
    MadeOfItems c w (initEvents c w fs dc dm) := by
  cases w
  · unfold initEvents initEventsFour
    have nib := MadeOfItems.nibble c .four
    have cmd := MadeOfItems.command c .four
    exact ((((((((MadeOfItems.rsLow c _).append ((nib 3).append (.gap c _ _))).append
      ((nib 3).append (.gap c _ _))).append ((nib 3).append (.gap c _ _))).append (nib 2)).append
      (cmd fs)).append (cmd dc)).append (cmd dm))
  · unfold initEvents initEventsEight
    have cmd := MadeOfItems.command c .eight
    exact ((((((cmd fs).append (.gap c _ _)).append ((cmd fs).append (.gap c _ _))).append
      (cmd fs)).append (cmd fs)).append (cmd dc)).append (cmd dm)

/-! ## Requests -/

/-- The state a request leaves when it is accepted: its register updates, then acceptance (R31). `fs`, `dc` and `dm`
are the shadows after the updates, which keep their shape (R101). -/
structure AcceptedAs (s t : State) (w : BusWidth) (fs dc dm : Byte) (op : Opcode) (events : List BusEvent) : Prop where
  result : t = { s with fs := fs, dc := dc, dm := dm }.accept op events
  items : MadeOfItems s.config w events
  shaped : s.ShadowsShaped w → { s with fs := fs, dc := dc, dm := dm : State }.ShadowsShaped w

/-- Everything an instruction can do when it answers a next state. -/
def ExecOutcome (i : Instr) (s t : State) : Prop :=
  ((s.status.fault = true ∨ s.config.width? = none) ∧ t = s) ∨
  (∃ w error op, s.Ready w ∧ t = s.raise error op) ∨
  (∃ w fs dc dm op events, s.Ready w ∧ AcceptedAs s t w fs dc dm op events) ∨
  (∃ w events, requestBytes i = none ∧ s.config.width? = some w ∧ s.status.fault = false ∧ events ≠ [] ∧
    MadeOfItems s.config w events ∧ t = s.emit events)

theorem ExecOutcome.of_request {i : Instr} {s t : State} {op : Opcode}
    {plan : BusWidth → Except ConfigError (State × List BusEvent)} (h : s.request op plan = .next t)
    (hp : ∀ w updated events, s.Ready w → plan w = .ok (updated, events) →
      ∃ fs dc dm, updated = { s with fs := fs, dc := dc, dm := dm } ∧ MadeOfItems s.config w events ∧
        (s.ShadowsShaped w → updated.ShadowsShaped w)) : ExecOutcome i s t := by
  rcases State.request_cases h with h | ⟨w, hr, ⟨error, _, ht⟩ | ⟨updated, events, hok, ht⟩⟩
  · exact .inl h
  · exact .inr (.inl ⟨w, error, _, hr, ht⟩)
  · obtain ⟨fs, dc, dm, hu, hi, hs⟩ := hp w updated events hr hok
    subst hu
    exact .inr (.inr (.inl ⟨w, fs, dc, dm, op, events, hr, ⟨ht, hi, hs⟩⟩))

/-- A request that changes no shadow. -/
theorem ExecOutcome.of_display {i : Instr} {s t : State} {op : Opcode} {events : BusWidth → Except ConfigError (List BusEvent)}
    (h : s.request op (fun w => (events w).map fun list => (s, list)) = .next t)
    (hi : ∀ w list, events w = .ok list → MadeOfItems s.config w list) : ExecOutcome i s t := by
  refine .of_request h fun w updated list _ hok => ?_
  rcases he : events w with error | list' <;> rw [he] at hok <;> cases hok
  exact ⟨s.fs, s.dc, s.dm, rfl, hi w _ he, id⟩

theorem ExecOutcome.of_setFS {i : Instr} {s t : State} {op : Opcode} {mask : Byte} {check : BusWidth → Except ConfigError Bool}
    (h : s.setFS op mask check = .next t)
    (hm : ∀ w v, check w = .ok v → s.fs &&& 0xF3 = functionSetBase w →
      setFlag s.fs mask v &&& 0xF3 = functionSetBase w) : ExecOutcome i s t := by
  refine .of_request h fun w updated list _ hok => ?_
  rcases he : check w with error | v <;> rw [he] at hok <;> cases hok
  exact ⟨_, s.dc, s.dm, rfl, .nil _ _, fun hs => ⟨hm w v he hs.fs, hs.dc, hs.dm⟩⟩

theorem ExecOutcome.of_setDC {i : Instr} {s t : State} {op : Opcode} {mask : Byte} {check : Except ConfigError Bool}
    (h : s.setDC op mask check = .next t)
    (hm : ∀ v, s.dc &&& 0xF8 = 0x08 → setFlag s.dc mask v &&& 0xF8 = 0x08) : ExecOutcome i s t := by
  refine .of_request h fun w updated list _ hok => ?_
  rcases he : check with error | v <;> rw [he] at hok <;> cases hok
  exact ⟨s.fs, _, s.dm, rfl, .nil _ _, fun hs => ⟨hs.fs, hm v hs.dc, hs.dm⟩⟩

theorem ExecOutcome.of_setDM {i : Instr} {s t : State} {op : Opcode} {mask : Byte} {check : Except ConfigError Bool}
    (h : s.setDM op mask check = .next t)
    (hm : ∀ v, s.dm &&& 0xFC = 0x04 → setFlag s.dm mask v &&& 0xFC = 0x04) : ExecOutcome i s t := by
  refine .of_request h fun w updated list _ hok => ?_
  rcases he : check with error | v <;> rw [he] at hok <;> cases hok
  exact ⟨s.fs, s.dc, _, rfl, .nil _ _, fun hs => ⟨hs.fs, hs.dc, hm v hs.dm⟩⟩

theorem ExecOutcome.of_traffic {i : Instr} (hn : requestBytes i = none) {s t : State} {events : BusWidth → Except Refusal (List BusEvent)}
    (h : s.traffic events = .next t)
    (hi : ∀ w list, events w = .ok list → list ≠ [] ∧ MadeOfItems s.config w list) : ExecOutcome i s t := by
  rcases State.traffic_cases h with h | ⟨w, list, hw, hf, hok, ht⟩
  · exact .inl h
  · exact .inr (.inr (.inr ⟨w, list, hn, hw, hf, (hi w list hok).1, (hi w list hok).2, ht⟩))

theorem ExecOutcome.of_wireByte {i : Instr} (hn : requestBytes i = none) {s t : State} {rs : Bool} {b : Byte} (h : s.wireByte rs b = .next t) :
    ExecOutcome i s t :=
  .of_traffic hn h fun w list hok => by
    cases hok; exact ⟨writeByte_ne_nil _ _ _ _, .writeByte _ _ _ _⟩

theorem ExecOutcome.of_wireNibble {i : Instr} (hn : requestBytes i = none) {s t : State} {v : Nibble} (h : s.wireNibble v = .next t) : ExecOutcome i s t :=
  .of_traffic hn h fun w list hok => by
    cases w
    · simp only at hok
      cases hok
      refine ⟨by simp [transfer, enablePulse], ?_⟩
      split
      · exact (MadeOfItems.rsLow _ _).append (.nibble _ _ _)
      · exact .nibble _ _ _
    · cases hok

/-- Setting a flag outside a mask leaves the bits of the mask. -/
theorem setFlag_and {reg flag mask value : Byte} (v : Bool) (hf : flag &&& mask = 0) (h : reg &&& mask = value) :
    setFlag reg flag v &&& mask = value := by
  unfold setFlag
  split
  · rw [BitVec.and_comm, BitVec.and_or_distrib_left, BitVec.and_comm mask reg, h, BitVec.and_comm mask flag, hf]
    simp
  · rw [BitVec.and_assoc, BitVec.and_comm _ mask, ← BitVec.and_assoc, h]
    ext k hk
    have h1 := congrArg (fun b : Byte => b[k]) h
    have h2 := congrArg (fun b : Byte => b[k]) hf
    simp only [BitVec.getElem_and, BitVec.getElem_not] at h1 h2 ⊢
    rw [← h1]
    cases hr : reg[k] <;> cases hm : mask[k] <;> cases hl : flag[k] <;> simp_all

/-- R102: SETBW leaves FS as it is, when the 8-bit-bus flag equals (N = 8). -/
theorem setFlag_eightBit {fs : Byte} {w : BusWidth} (h : fs &&& 0xF3 = functionSetBase w) :
    setFlag fs flagEightBit (decide (w = .eight)) = fs := by
  have key : ∀ fs : Byte, (fs &&& 0xF3 = 0x20 → setFlag fs flagEightBit false = fs) ∧
      (fs &&& 0xF3 = 0x30 → setFlag fs flagEightBit true = fs) := by decide +kernel
  cases w
  · exact (key fs).1 h
  · exact (key fs).2 h

/-- Everything an instruction can do when it answers a next state. -/
theorem exec_cases {i : Instr} {s t : State} (h : exec i s = .next t) : ExecOutcome i s t := by
  cases i with
  | init columns rows =>
    refine .of_request h fun w updated list _ hok => ?_
    rcases he : lineCountOperand rows with error | v <;> rw [he] at hok <;> cases hok
    exact ⟨_, s.dc, s.dm, rfl, initEvents_madeOfItems _ _ _ _ _,
      fun hs => ⟨setFlag_and v (by decide) hs.fs, hs.dc, hs.dm⟩⟩
  | clear =>
    exact .of_display (events := fun w => .ok (clearEvents s.config w)) h fun w list hok => by
      cases hok; exact (MadeOfItems.command _ _ _).append (.gap _ _ _)
  | home =>
    exact .of_display (events := fun w => .ok (homeEvents s.config w)) h fun w list hok => by
      cases hok; exact (MadeOfItems.command _ _ _).append (.gap _ _ _)
  | move column row =>
    refine .of_request h fun w updated list _ hok => ?_
    rcases he : cursorAddress column row with error | address <;> rw [he] at hok <;> cases hok
    exact ⟨s.fs, s.dc, s.dm, rfl, .command _ _ _, id⟩
  | print text =>
    exact .of_display (events := fun w => .ok (printEvents s.config w text)) h fun w list hok => by
      cases hok; exact .flatMap (MadeOfItems.data _ _) _
  | cglyph idx p0 p1 p2 p3 p4 p5 p6 p7 =>
    refine .of_request h fun w updated list _ hok => ?_
    rcases he : glyphIndexOperand idx with error | g <;> rw [he] at hok <;> cases hok
    exact ⟨s.fs, s.dc, s.dm, rfl, (MadeOfItems.command _ _ _).append (.flatMap (MadeOfItems.data _ _) _), id⟩
  | sglyph idx =>
    refine .of_request h fun w updated list _ hok => ?_
    rcases he : glyphIndexOperand idx with error | g <;> rw [he] at hok <;> cases hok
    exact ⟨s.fs, s.dc, s.dm, rfl, .data _ _ _, id⟩
  | setbw b =>
    refine .of_setFS h fun w v hok hs => ?_
    have hv : v = decide (w = .eight) := by
      unfold busWidthOperand at hok
      cases w <;> simp at hok <;> split at hok <;> (try split at hok) <;> simp_all
    rw [hv, setFlag_eightBit hs]
    exact hs
  | setlines n => exact .of_setFS h fun w v _ hs => setFlag_and v (by decide) hs
  | setfont f => exact .of_setFS h fun w v _ hs => setFlag_and v (by decide) hs
  | setdisp b => exact .of_setDC h fun v hs => setFlag_and v (by decide) hs
  | setcurs b => exact .of_setDC h fun v hs => setFlag_and v (by decide) hs
  | setblink b => exact .of_setDC h fun v hs => setFlag_and v (by decide) hs
  | setdir b => exact .of_setDM h fun v hs => setFlag_and v (by decide) hs
  | setshift b => exact .of_setDM h fun v hs => setFlag_and v (by decide) hs
  | wClearDisplay => exact .of_wireByte rfl h
  | wReturnHome => exact .of_wireByte rfl h
  | wDisplayMode x y => exact .of_wireByte rfl h
  | wDisplayControl x y z => exact .of_wireByte rfl h
  | wFunctionSet x y z => exact .of_wireByte rfl h
  | wCgramAddr g => exact .of_wireByte rfl h
  | wDdramAddr r c => exact .of_wireByte rfl h
  | wData d => exact .of_wireByte rfl h
  | wInitNibble3 => exact .of_wireNibble rfl h
  | wInitNibble2 => exact .of_wireNibble rfl h

end Sys2Proof.Machine
end

