-- ==== Sys2Proof/Laws/PerInstr.lean ====
section
/-! SUPPORT. What is said of every instruction, one lemma per constructor. -/

namespace Sys2Proof.Laws

/-! ## The first word of an instruction has the bits of its row of opcode_table.json -/

/-- The bits its table row fixes are in the instruction's first word (30_encoding.md R72, R76 to R78). -/
def MatchesTableRow.Statement (i : Instr) : Prop :=
  (encode i).firstWord &&& (tableRow i).mask = (tableRow i).pattern

/-- The first byte of a request is its opcode, all of it. -/
theorem Opcode.code_and_mask (o : Opcode) : o.code &&& 0xFF = o.code := by
  cases o <;> rfl

theorem MatchesTableRow.init (columns rows : Byte) : MatchesTableRow.Statement (.init columns rows) := Opcode.code_and_mask .init
theorem MatchesTableRow.clear : MatchesTableRow.Statement .clear := Opcode.code_and_mask .clear
theorem MatchesTableRow.home : MatchesTableRow.Statement .home := Opcode.code_and_mask .home
theorem MatchesTableRow.move (column row : Byte) : MatchesTableRow.Statement (.move column row) := Opcode.code_and_mask .move
theorem MatchesTableRow.print (text : List Byte) : MatchesTableRow.Statement (.print text) := Opcode.code_and_mask .print
theorem MatchesTableRow.cglyph (idx p0 p1 p2 p3 p4 p5 p6 p7 : Byte) :
    MatchesTableRow.Statement (.cglyph idx p0 p1 p2 p3 p4 p5 p6 p7) := Opcode.code_and_mask .cglyph
theorem MatchesTableRow.sglyph (idx : Byte) : MatchesTableRow.Statement (.sglyph idx) := Opcode.code_and_mask .sglyph
theorem MatchesTableRow.setbw (w : Byte) : MatchesTableRow.Statement (.setbw w) := Opcode.code_and_mask .setbw
theorem MatchesTableRow.setlines (n : Byte) : MatchesTableRow.Statement (.setlines n) := Opcode.code_and_mask .setlines
theorem MatchesTableRow.setfont (f : Byte) : MatchesTableRow.Statement (.setfont f) := Opcode.code_and_mask .setfont
theorem MatchesTableRow.setdisp (b : Byte) : MatchesTableRow.Statement (.setdisp b) := Opcode.code_and_mask .setdisp
theorem MatchesTableRow.setcurs (b : Byte) : MatchesTableRow.Statement (.setcurs b) := Opcode.code_and_mask .setcurs
theorem MatchesTableRow.setblink (b : Byte) : MatchesTableRow.Statement (.setblink b) := Opcode.code_and_mask .setblink
theorem MatchesTableRow.setdir (b : Byte) : MatchesTableRow.Statement (.setdir b) := Opcode.code_and_mask .setdir
theorem MatchesTableRow.setshift (b : Byte) : MatchesTableRow.Statement (.setshift b) := Opcode.code_and_mask .setshift
theorem MatchesTableRow.wClearDisplay : MatchesTableRow.Statement .wClearDisplay := rfl
theorem MatchesTableRow.wReturnHome : MatchesTableRow.Statement .wReturnHome := rfl
theorem MatchesTableRow.wDisplayMode (entryLeft entryShift : Bool) :
    MatchesTableRow.Statement (.wDisplayMode entryLeft entryShift) := by
  cases entryLeft <;> cases entryShift <;> rfl
theorem MatchesTableRow.wDisplayControl (displayOn cursorOn blinkOn : Bool) :
    MatchesTableRow.Statement (.wDisplayControl displayOn cursorOn blinkOn) := by
  cases displayOn <;> cases cursorOn <;> cases blinkOn <;> rfl
theorem MatchesTableRow.wFunctionSet (eightBit twoLine tallFont : Bool) :
    MatchesTableRow.Statement (.wFunctionSet eightBit twoLine tallFont) := by
  cases eightBit <;> cases twoLine <;> cases tallFont <;> rfl
theorem MatchesTableRow.wCgramAddr (i : BitVec 3) : MatchesTableRow.Statement (.wCgramAddr i) := by
  revert i; unfold MatchesTableRow.Statement; decide
theorem MatchesTableRow.wDdramAddr (row : Bool) (column : BitVec 6) :
    MatchesTableRow.Statement (.wDdramAddr row column) := by
  revert row column; unfold MatchesTableRow.Statement; decide +kernel
theorem MatchesTableRow.wData (d : Byte) : MatchesTableRow.Statement (.wData d) := by
  simp [MatchesTableRow.Statement, tableRow]
theorem MatchesTableRow.wInitNibble3 : MatchesTableRow.Statement .wInitNibble3 := rfl
theorem MatchesTableRow.wInitNibble2 : MatchesTableRow.Statement .wInitNibble2 := rfl

end Sys2Proof.Laws
end

