-- ==== Sys2Proof/Laws/Receiver.lean ====
section
/-! SUPPORT. What a byte, a transfer and a list of events do to the observer of the bus: only a FunctionSet byte moves its
bus mode and its pairing, whatever the free values are. -/

namespace Sys2Proof.Machine

/-! ## The bus mode and the pairing -/

/-- A FunctionSet command (R203). -/
def isFunctionSet (rs : Bool) (b : Byte) : Bool := !rs && !b.getLsbD 7 && !b.getLsbD 6 && b.getLsbD 5

@[simp] theorem Receiver.unfixedMemory_eightBit (r : Receiver) : r.unfixedMemory.eightBit = r.eightBit := rfl
@[simp] theorem Receiver.unfixedMemory_high (r : Receiver) : r.unfixedMemory.high = r.high := rfl
@[simp] theorem Receiver.unfixedMemory_twoLine (r : Receiver) : r.unfixedMemory.twoLine = r.twoLine := rfl
@[simp] theorem Receiver.unfixedMemory_tallFont (r : Receiver) : r.unfixedMemory.tallFont = r.tallFont := rfl
@[simp] theorem Receiver.unfixedMemory_displayOn (r : Receiver) : r.unfixedMemory.displayOn = r.displayOn := rfl
@[simp] theorem Receiver.unfixedMemory_cursorOn (r : Receiver) : r.unfixedMemory.cursorOn = r.cursorOn := rfl
@[simp] theorem Receiver.unfixedMemory_blinkOn (r : Receiver) : r.unfixedMemory.blinkOn = r.blinkOn := rfl
@[simp] theorem Receiver.unfixedMemory_entryLeft (r : Receiver) : r.unfixedMemory.entryLeft = r.entryLeft := rfl
@[simp] theorem Receiver.unfixedMemory_entryShift (r : Receiver) : r.unfixedMemory.entryShift = r.entryShift := rfl
@[simp] theorem Receiver.unfixedMemory_latches (r : Receiver) : r.unfixedMemory.latches = r.latches := rfl
@[simp] theorem Receiver.unfixed_eightBit (r : Receiver) : r.unfixed.eightBit = r.eightBit := rfl
@[simp] theorem Receiver.unfixed_high (r : Receiver) : r.unfixed.high = r.high := rfl
@[simp] theorem Receiver.unfixed_latches (r : Receiver) : r.unfixed.latches = r.latches := rfl

/-- Everything an acted-on byte does to the bus mode, the pairing and the count of latches (R201, R203). -/
theorem Receiver.act_mode (r : Receiver) (rs : Bool) (b : Byte) :
    (r.act rs b).eightBit = (if isFunctionSet rs b then b.getLsbD 4 else r.eightBit) ∧
    (r.act rs b).high = (if isFunctionSet rs b then none else r.high) ∧
    (r.act rs b).latches = r.latches := by
  cases rs
  · unfold Receiver.act Receiver.command Receiver.setDdramAddress isFunctionSet
    cases h7 : b.getLsbD 7
    · cases h6 : b.getLsbD 6
      · cases h5 : b.getLsbD 5
        · cases b.getLsbD 4 <;> cases b.getLsbD 3 <;> cases b.getLsbD 2 <;> cases b.getLsbD 1 <;>
            cases b.getLsbD 0 <;> simp
        · simp
      · simp
    · by_cases hh : r.hides (b.extractLsb' 0 7) <;> simp [hh]
  · unfold Receiver.act Receiver.writeData isFunctionSet
    cases r.pointer with
    | ddram a => by_cases hh : r.hides a <;> simp [hh]
    | cgram a => simp

@[simp] theorem pairedSelect_self (rs : Bool) (latch : Nat) : pairedSelect rs rs latch = rs := by
  simp [pairedSelect]

/-! ## The address counter -/

/-- R204: away from the ends of its range the DDRAM address counter advances by one, in either row mode. -/
theorem ddramNext_of_inside {j : Nat} {twoLine up : Bool} {a : BitVec 7} (h : ddramEnds twoLine up a = false) :
    ddramNext j twoLine up a = if up then a + 1 else a - 1 := by
  simp [ddramNext, h]

/-! ## Events -/

theorem Receiver.observe_append (c : Config) (r : Receiver) (l : Lines) (xs ys : List BusEvent) :
    Receiver.observe c r l (xs ++ ys) = Receiver.observe c (Receiver.observe c r l xs) (l.applyAll xs) ys := by
  induction xs generalizing r l with
  | nil => rfl
  | cons event xs ih => simp [Receiver.observe, ih]

/-- An event that leaves E low is not seen (R200). -/
theorem Receiver.see_of_low (c : Config) (r : Receiver) (l : Lines) (event : BusEvent) (h : l.e = false) :
    r.see c l event = r := by
  simp [Receiver.see, Lines.falls, h]

/-- The data-line drives of a transfer are not seen. -/
theorem Receiver.observe_dataDrives (c : Config) (r : Receiver) (l : Lines) {n : Nat} (v : BitVec n)
    (h : l.e = false) : Receiver.observe c r l (dataDrives v) = r := by
  unfold dataDrives
  generalize List.range n = lines
  induction lines generalizing l with
  | nil => rfl
  | cons i lines ih =>
    simp only [List.map_cons, Receiver.observe, Receiver.see_of_low c r l _ h]
    exact ih _ h

end Sys2Proof.Machine
end

