-- ==== Sys2Proof/Tests/Slice0.lean ====
section
/-! SUPPORT. Tests: the smoke test of WellFormed, words written out from the spec's encodings, vectors of
95_test_vectors.md (each test names its section), and for every statement with hypotheses a witness that meets them. -/

namespace Sys2Proof.Tests

open Sys2Proof Sys2Proof.Machine

/-! ## Helpers -/

/-- A block after reset with N = 8. -/
def eightState : State := State.constructed (Config.ardt 8) .eight

/-- The next state, if there is one. -/
def nextOf : Result → Option State
  | .next t => some t
  | .fault _ => none
  | .refused _ => none

/-- FS, DC, DM, STATUS, ERRCODE and ERRINFO as the host reads them. -/
def registersOf (r : Result) : Option (List Byte) :=
  (nextOf r).map fun t =>
    [t.readRegister 0x04, t.readRegister 0x05, t.readRegister 0x06, t.readRegister 0x01, t.readRegister 0x02,
      t.readRegister 0x03]

/-- The transfer transcript of the pending events, each transfer as RS and the value on the data lines. -/
def transfersOf (r : Result) : Option (List (Bool × Nat)) :=
  (nextOf r).map fun t =>
    (transcript t.lines t.seq).map fun p => (p.1, p.2.foldr (fun b n => b.toNat + 2 * n) 0)

/-- How many events are pending, and their least duration. -/
def costOf (r : Result) : Option (Nat × Nat) := (nextOf r).map fun t => (t.seq.length, minDuration t.seq)

/-! ## WellFormed -/

/-- Its one check: a PRINT of 256 bytes has no encoding. -/
theorem test_wellFormed_refuses_long_print : (Instr.print (List.replicate 256 0)).wellFormed = false := by decide +kernel

theorem test_wellFormed_takes_longest_print : (Instr.print (List.replicate 255 0)).wellFormed = true := by
  decide +kernel

/-! ## Decoding: words written out from R70 to R78 -/

theorem test_decode_init : decode (.request [0x01, 0x10, 0x02]) = .ok (.init 16 2) := by decide
theorem test_decode_clear : decode (.request [0x02]) = .ok .clear := by decide
theorem test_decode_home : decode (.request [0x03]) = .ok .home := by decide
theorem test_decode_move : decode (.request [0x04, 0x05, 0x01]) = .ok (.move 5 1) := by decide
theorem test_decode_print : decode (.request [0x05, 0x02, 0x48, 0x69]) = .ok (.print [0x48, 0x69]) := by decide
theorem test_decode_print_empty : decode (.request [0x05, 0x00]) = .ok (.print []) := by decide
theorem test_decode_cglyph :
    decode (.request [0x06, 0x07, 0xFF, 0x00, 0xFE, 0x01, 0xFD, 0x02, 0xFC, 0x03]) =
      .ok (.cglyph 7 0xFF 0x00 0xFE 0x01 0xFD 0x02 0xFC 0x03) := by decide
theorem test_decode_sglyph : decode (.request [0x07, 0x05]) = .ok (.sglyph 5) := by decide
theorem test_decode_setbw : decode (.request [0x10, 0x04]) = .ok (.setbw 4) := by decide
theorem test_decode_setlines : decode (.request [0x11, 0x02]) = .ok (.setlines 2) := by decide
theorem test_decode_setfont : decode (.request [0x12, 0x0B]) = .ok (.setfont 0x0B) := by decide
theorem test_decode_setdisp : decode (.request [0x13, 0x01]) = .ok (.setdisp 1) := by decide
theorem test_decode_setcurs : decode (.request [0x14, 0x01]) = .ok (.setcurs 1) := by decide
theorem test_decode_setblink : decode (.request [0x15, 0x01]) = .ok (.setblink 1) := by decide
theorem test_decode_setdir : decode (.request [0x16, 0x00]) = .ok (.setdir 0) := by decide
theorem test_decode_setshift : decode (.request [0x17, 0x01]) = .ok (.setshift 1) := by decide
theorem test_decode_clear_display : decode (.wireByte false 0b00000001) = .ok .wClearDisplay := by decide
theorem test_decode_return_home : decode (.wireByte false 0b00000010) = .ok .wReturnHome := by decide
theorem test_decode_display_mode : decode (.wireByte false 0b00000110) = .ok (.wDisplayMode true false) := by decide
theorem test_decode_display_control :
    decode (.wireByte false 0b00001100) = .ok (.wDisplayControl true false false) := by decide
theorem test_decode_function_set : decode (.wireByte false 0b00110100) = .ok (.wFunctionSet true false true) := by
  decide
theorem test_decode_cgram_addr : decode (.wireByte false 0b01101000) = .ok (.wCgramAddr 5) := by decide
theorem test_decode_ddram_addr : decode (.wireByte false 0b11000101) = .ok (.wDdramAddr true 5) := by decide
theorem test_decode_data : decode (.wireByte true 0x01) = .ok (.wData 1) := by decide
theorem test_decode_init_nibble3 : decode (.wireNibble false 0b0011) = .ok .wInitNibble3 := by decide
theorem test_decode_init_nibble2 : decode (.wireNibble false 0b0010) = .ok .wInitNibble2 := by decide
theorem test_decode_reserved : decode (.request [0x08]) = .error (.reserved 0x08) := by decide
theorem test_decode_incomplete : decode (.request [0x04, 0x05]) = .error .incomplete := by decide
theorem test_decode_never_emitted : decode (.wireByte false 0x18) = .error .neverEmitted := by decide

/-- A word of the table is read by its number of bits. -/
theorem test_decodeTableWord_move : decodeTableWord 24 0x010504 = some (.move 5 1) := by decide +kernel

/-- Bits above `nbits` are operand bytes of 0. -/
theorem test_decodeTableWord_short : decodeTableWord 8 0x04 = some (.move 0 0) := by decide +kernel

/-! ## Reset (L2.1) -/

theorem test_reset_four : (List.range 8).map (fun k => State.reset.readRegister (BitVec.ofNat 8 k)) =
    [0x00, 0x00, 0x00, 0x00, 0x20, 0x0C, 0x06, 0x04] := by decide

theorem test_reset_eight : (List.range 8).map (fun k => eightState.readRegister (BitVec.ofNat 8 k)) =
    [0x00, 0x00, 0x00, 0x00, 0x30, 0x0C, 0x06, 0x08] := by decide

/-- N = 5 in a raw-number model (L2.1, E9). -/
theorem test_reset_five : [0x01, 0x02, 0x03, 0x07].map (State.construct (Config.ardt 5)).readRegister =
    [0x02, 0x01, 0x00, 0x05] := by decide

/-! ## Requests -/

/-- L2.6, N = 4: nibbles 3, 3, 3, 2, then 28, 0C, 06. -/
theorem test_init_four : transfersOf (exec (.init 16 2) State.reset) =
    some ([3, 3, 3, 2, 2, 8, 0, 0xC, 0, 6].map fun v => (false, v)) := by decide +kernel

/-- L2.6, N = 8: 38 four times, then 0C, 06. -/
theorem test_init_eight : transfersOf (exec (.init 16 2) eightState) =
    some ([0x38, 0x38, 0x38, 0x38, 0x0C, 0x06].map fun v => (false, v)) := by decide +kernel

/-- L2.7. -/
theorem test_clear : transfersOf (exec .clear State.reset) = some [(false, 0), (false, 1)] ∧
    costOf (exec .clear State.reset) = some (22, 2204) := by decide +kernel

/-- L2.7. -/
theorem test_home : transfersOf (exec .home eightState) = some [(false, 2)] ∧
    costOf (exec .home eightState) = some (16, 2102) := by decide +kernel

/-- L2.4, E5. -/
theorem test_move : transfersOf (exec (.move 5 1) State.reset) = some [(false, 0xC), (false, 5)] := by decide +kernel

/-- L2.4: the row is checked first. -/
theorem test_move_row_first : registersOf (exec (.move 0x40 2) State.reset) =
    some [0x20, 0x0C, 0x06, 0x02, 0x04, 0x04] := by decide

/-- L2.8. -/
theorem test_print : transfersOf (exec (.print [0x48, 0x69]) State.reset) =
    some [(true, 4), (true, 8), (true, 6), (true, 9)] := by decide +kernel

/-- L2.2: an empty PRINT completes at acceptance. -/
theorem test_print_empty : (nextOf (exec (.print []) State.reset)).map (fun t => (t.status.toByte, t.curop)) =
    some (0x00, 0x05) := by decide

/-- L2.9, E6. -/
theorem test_cglyph : transfersOf (exec (.cglyph 3 0x1C 0x1C 0x1C 0x1C 0x1C 0x1C 0x1C 0x7C) eightState) =
    some ((false, 0x58) :: ([0x1C, 0x1C, 0x1C, 0x1C, 0x1C, 0x1C, 0x1C, 0x7C].map fun v => (true, v))) := by
  decide +kernel

/-- L2.10. -/
theorem test_cglyph_index : registersOf (exec (.cglyph 9 0 0 0 0 0 0 0 0) State.reset) =
    some [0x20, 0x0C, 0x06, 0x02, 0x06, 0x06] := by decide

/-- L2.9. -/
theorem test_sglyph : transfersOf (exec (.sglyph 5) State.reset) = some [(true, 0), (true, 5)] := by decide +kernel

/-- L2.9. -/
theorem test_sglyph_index : registersOf (exec (.sglyph 8) State.reset) =
    some [0x20, 0x0C, 0x06, 0x02, 0x06, 0x07] := by decide

/-- L2.3. -/
theorem test_setbw : registersOf (exec (.setbw 8) eightState) = some [0x30, 0x0C, 0x06, 0x00, 0x00, 0x00] := by decide

/-- L2.3, L2.10. -/
theorem test_setbw_faults : registersOf (exec (.setbw 8) State.reset) = some [0x20, 0x0C, 0x06, 0x02, 0x09, 0x10] ∧
    registersOf (exec (.setbw 5) State.reset) = some [0x20, 0x0C, 0x06, 0x02, 0x01, 0x10] := by decide

/-- L2.3, E2. -/
theorem test_setlines : registersOf (exec (.setlines 2) State.reset) =
    some [0x28, 0x0C, 0x06, 0x00, 0x00, 0x00] := by decide

/-- L2.3. -/
theorem test_setlines_faults : registersOf (exec (.setlines 4) State.reset) =
    some [0x20, 0x0C, 0x06, 0x02, 0x02, 0x11] := by decide

/-- L2.3. -/
theorem test_setfont : registersOf (exec (.setfont 0x0B) State.reset) =
    some [0x24, 0x0C, 0x06, 0x00, 0x00, 0x00] := by decide

/-- L2.3. -/
theorem test_setfont_faults : registersOf (exec (.setfont 0x0A) State.reset) =
    some [0x20, 0x0C, 0x06, 0x02, 0x03, 0x12] := by decide

/-- L2.3. -/
theorem test_setdisp : registersOf (exec (.setdisp 0) State.reset) =
    some [0x20, 0x08, 0x06, 0x00, 0x00, 0x00] := by decide

/-- L2.3: 2 is not read as true. -/
theorem test_setdisp_faults : registersOf (exec (.setdisp 2) State.reset) =
    some [0x20, 0x0C, 0x06, 0x02, 0x07, 0x13] := by decide

/-- L2.3. -/
theorem test_setcurs : registersOf (exec (.setcurs 1) State.reset) =
    some [0x20, 0x0E, 0x06, 0x00, 0x00, 0x00] := by decide

/-- L2.3. -/
theorem test_setblink : registersOf (exec (.setblink 1) State.reset) =
    some [0x20, 0x0D, 0x06, 0x00, 0x00, 0x00] := by decide

/-- L2.3. -/
theorem test_setdir : registersOf (exec (.setdir 0) State.reset) =
    some [0x20, 0x0C, 0x04, 0x00, 0x00, 0x00] := by decide

/-- L2.3. -/
theorem test_setshift : registersOf (exec (.setshift 1) State.reset) =
    some [0x20, 0x0C, 0x07, 0x00, 0x00, 0x00] := by decide

/-! ## Bus traffic: values from the bit patterns of R76 to R78 -/

theorem test_wClearDisplay : transfersOf (exec .wClearDisplay eightState) = some [(false, 0x01)] := by decide +kernel
theorem test_wReturnHome : transfersOf (exec .wReturnHome State.reset) = some [(false, 0), (false, 2)] := by
  decide +kernel
theorem test_wDisplayMode : transfersOf (exec (.wDisplayMode true false) eightState) = some [(false, 0x06)] := by
  decide +kernel
theorem test_wDisplayControl : transfersOf (exec (.wDisplayControl true false true) eightState) =
    some [(false, 0x0D)] := by decide +kernel
theorem test_wFunctionSet : transfersOf (exec (.wFunctionSet false true false) State.reset) =
    some [(false, 2), (false, 8)] := by decide +kernel
theorem test_wCgramAddr : transfersOf (exec (.wCgramAddr 3) State.reset) = some [(false, 5), (false, 8)] := by
  decide +kernel
theorem test_wDdramAddr : transfersOf (exec (.wDdramAddr true 0x3F) eightState) = some [(false, 0xFF)] := by
  decide +kernel
theorem test_wData : transfersOf (exec (.wData 0x80) State.reset) = some [(true, 8), (true, 0)] := by decide +kernel
theorem test_wInitNibble3 : transfersOf (exec .wInitNibble3 State.reset) = some [(false, 3)] := by decide +kernel
theorem test_wInitNibble2 : transfersOf (exec .wInitNibble2 State.reset) = some [(false, 2)] := by decide +kernel

/-! ## Steps -/

/-- L2.2: the first byte of a MOVE. -/
theorem test_step_partial : (nextOf (step { State.reset with host := [.write 0 0x04] })).map
    (fun t => (t.rq, t.status.toByte, t.seq)) = some ([0x04], 0x08, []) := by decide

/-- L2.10: the byte 0x02 is the row, not a CLEAR. -/
theorem test_step_completes : registersOf (step { State.reset with
      rq := [0x04, 0x00], status := { State.reset.status with rqPart := true }, host := [.write 0 0x02] }) =
    some [0x20, 0x0C, 0x06, 0x02, 0x04, 0x04] := by decide

/-- L2.2: a reserved opcode. -/
theorem test_step_reserved : registersOf (step { State.reset with host := [.write 0 0xFF] }) =
    some [0x20, 0x0C, 0x06, 0x02, 0x08, 0xFF] := by decide

/-- L2.2: offset 0x08 reads 0x00. -/
theorem test_step_read_reserved : (nextOf (step { State.reset with host := [.read 8] })).map State.answers =
    some [0x00] := by decide

/-- The word of a row placed for the next step: CLEAR runs, and its 22 events are pending. -/
theorem test_withFetchWord_clear :
    (nextOf (step (State.reset.withFetchWord 8 0x02))).map (fun t => (t.curop, t.seq.length)) =
      some (0x02, 22) := by decide +kernel

/-! ## Trace, receiver and assembler -/

/-- L2.6, R138. -/
theorem test_gaps : (transferGaps (initEvents (Config.ardt 4) .four 0x28 0x0C 0x06)).take 3 =
    [⟨4601, 4602⟩, ⟨4601, 4602⟩, ⟨251, 252⟩] := by decide +kernel

/-- A receiver in 4-bit mode, in phase, with its address counter at 0. -/
def someReceiver : Receiver where
  eightBit := false
  high := none
  twoLine := true
  tallFont := false
  displayOn := true
  cursorOn := false
  blinkOn := false
  entryLeft := true
  entryShift := false
  pointer := .ddram 0
  ddram := List.replicate 128 0x20
  cgram := List.replicate 64 0
  latches := 0

/-- P1: after MOVE 5, 1 a data byte lands at DDRAM 0x45 (the receiver view). -/
theorem test_receiver_move : ((someReceiver.act false 0xC5).act true 0x48).ddram.getD 0x45 0 = 0x48 ∧
    ((someReceiver.act false 0xC5).act true 0x48).pointer = .ddram 0x46 := by decide +kernel

/-- R202, third row: a low nibble completes a byte, and the pairing then starts anew. -/
theorem test_receiver_pairs : ({ someReceiver with high := some (false, 0x3) }.latch false 0x30).eightBit = true := by
  decide +kernel

/-- R5: with the default wiring of N = 8 every line reaches its own pin. -/
theorem test_receiver_pins :
    receiverPins (Config.ardt 8) [true, false, true, false, false, false, true, true] 0 = 0xC5 := by decide +kernel

/-- P2: in 1-row mode the second character goes to the address after the first one's, here 0x27 and 0x28. -/
theorem test_receiver_one_row :
    let r := (({ someReceiver with twoLine := false, pointer := .ddram 0x27 }.act true 0x4F).act true 0x4B)
    r.ddram.getD 0x27 0 = 0x4F ∧ r.ddram.getD 0x28 0 = 0x4B ∧ r.pointer = .ddram 0x29 := by decide +kernel

/-- R206: the byte 0x03 is home, by its highest set bit (R203). -/
theorem test_receiver_time : receiverTime false 0x03 = 1520 ∧ receiverTime true 0x03 = 37 := by decide

/-- R205: a custom glyph's row is the low 5 bits of its byte. -/
theorem test_receiver_glyph :
    ((someReceiver.act false 0x58).act true 0xFC).cellRows 0x0B = [0x1C, 0, 0, 0, 0, 0, 0, 0] := by decide +kernel

/-- R80. -/
theorem test_assemble_move :
    assemble [['M', 'O', 'V', 'E', ' ', '5', ',', ' ', '0', 'x', '1', ' ', ';', 'x']] = .ok [0x04, 0x05, 0x01] := by
  decide

/-- R80: an operand above 255. -/
theorem test_assemble_too_large : assemble [['S', 'E', 'T', 'B', 'W', ' ', '2', '5', '6']] =
    .error .operandTooLarge := by decide

/-- R80: a string literal with an escape. -/
theorem test_assemble_print : assemble [['P', 'R', 'I', 'N', 'T', ' ', '"', 'H', '\\', 'x', '6', '9', '"']] =
    .ok [0x05, 0x02, 0x48, 0x69] := by decide

/-- R255: printing after CGLYPH without a MOVE, CLEAR or HOME. -/
theorem test_cgram_hazard : avoidsCgramHazard false [.cglyph 0 0 0 0 0 0 0 0 0, .sglyph 0] = false ∧
    avoidsCgramHazard false [.cglyph 0 0 0 0 0 0 0 0 0, .move 0 0, .sglyph 0] = true := by decide

/-! ## Witnesses: for every statement with hypotheses, a state and operands that meet all of them -/

/-- The host writes `b` to REQ next. -/
def writes (b : Byte) (s : State) : State := { s with host := .write s.config.regBase b :: s.host }

/-- A block with one event to perform. -/
def busyState : State :=
  { State.reset with
    seq := [.wait 5], curop := 0x01, status := { State.reset.status with busy := true } }

/-- A faulted block. -/
def faultedState : State := State.reset.raise .badBool 0x13

theorem reset_ready : State.reset.Ready .four := ⟨by decide, by decide, by decide⟩

theorem eight_ready : eightState.Ready .eight := ⟨by decide, by decide, by decide⟩

theorem shadows_of_reset (host : List HostAction) :
    ∀ w, State.reset.config.width? = some w → ({ State.reset with host := host } : State).ShadowsShaped w := by
  intro w h
  have hw : State.reset.config.width? = some .four := by decide
  rw [hw] at h
  cases h
  exact ⟨by show State.reset.fs &&& _ = _; decide, by show State.reset.dc &&& _ = _; decide,
    by show State.reset.dm &&& _ = _; decide⟩

theorem hardwired_of_reset (host : List HostAction) : ({ State.reset with host := host } : State).Hardwired :=
  ⟨by show State.reset.fs &&& _ = _; decide, by show State.reset.dc &&& _ = _; decide,
    by show State.reset.dm &&& _ = _; decide⟩

/-- The reset state with anything the host still does is one of a run. -/
theorem reset_inv (host : List HostAction) : ({ State.reset with host := host } : State).Inv where
  built := by intro h; cases h
  busy := by show State.reset.status.busy = true ↔ State.reset.seq ≠ []; decide
  part := by show State.reset.status.rqPart = true ↔ State.reset.rq ≠ []; decide
  unfinished := rfl
  quiet := by intro h; cases h
  noError := fun _ => ⟨rfl, rfl⟩
  error := by intro h; cases h
  shadows := shadows_of_reset host
  hardwired := hardwired_of_reset host
  levels := by
    intro w h
    have hw : State.reset.config.width? = some .four := by decide
    rw [show ({ State.reset with host := host } : State).config = State.reset.config from rfl, hw] at h
    cases h
    rfl
  enableRests := fun _ _ => rfl
  bounds := by intro p hp; cases hp
  draws := ⟨.nil, by intro p hp; cases hp⟩
  silent := fun _ => rfl

theorem eight_inv : eightState.Inv where
  built := by intro h; cases h
  busy := by decide
  part := by decide
  unfinished := rfl
  quiet := by intro h; cases h
  noError := fun _ => ⟨rfl, rfl⟩
  error := by intro h; cases h
  shadows := by
    intro w h
    have hw : eightState.config.width? = some .eight := by decide
    rw [hw] at h
    cases h
    exact ⟨by decide, by decide, by decide⟩
  hardwired := ⟨by decide, by decide, by decide⟩
  levels := by
    intro w h
    have hw : eightState.config.width? = some .eight := by decide
    rw [hw] at h
    cases h
    rfl
  enableRests := fun _ _ => rfl
  bounds := by intro p hp; cases hp
  draws := ⟨.nil, by intro p hp; cases hp⟩
  silent := fun _ => rfl

/-- A faulted block is one of a run too. -/
theorem faulted_inv (host : List HostAction) : ({ faultedState with host := host } : State).Inv where
  built := fun _ => rfl
  busy := by show faultedState.status.busy = true ↔ faultedState.seq ≠ []; decide
  part := by show faultedState.status.rqPart = true ↔ faultedState.rq ≠ []; decide
  unfinished := rfl
  quiet := fun _ => ⟨rfl, rfl⟩
  noError := by intro h; cases h
  error := fun _ => ⟨.badBool, rfl⟩
  shadows := fun w h => ⟨(shadows_of_reset host w h).fs, (shadows_of_reset host w h).dc, (shadows_of_reset host w h).dm⟩
  hardwired := ⟨(hardwired_of_reset host).fs, (hardwired_of_reset host).dc, (hardwired_of_reset host).dm⟩
  levels := (reset_inv host).levels
  enableRests := fun _ _ => rfl
  bounds := by intro p hp; cases hp
  draws := ⟨.nil, by intro p hp; cases hp⟩
  silent := fun _ => rfl

theorem reset_disciplined (host : List HostAction) : ({ State.reset with host := host } : State).PulseDisciplined := rfl

theorem witness_WrittenRequestIsReadBack :
    (Instr.print [0x48]).wellFormed = true ∧ encode (.print [0x48]) = .request [0x05, 0x01, 0x48] := by decide

theorem witness_DecodeOfEncodeIsIdentity : (Instr.wCgramAddr 7).wellFormed = true := by decide

theorem witness_EncodeOfDecodeIsIdentity : decode (.wireByte false 0xFF) = .ok (.wDdramAddr true 0x3F) := by decide

theorem witness_RequestIsCompleteAtItsLength : Opcode.ofByte 0x05 ≠ none := by decide

theorem witness_RequestsEmitTableTrafficOnly :
    State.reset.Inv ∧ State.reset.Ready .four ∧
    (∀ g : BitVec 3, State.reset.config.cgramCmd[g.toFin] = 0b01#2 ++ g ++ 0b000#3) ∧
    encode .clear = .request [0x02] ∧ ∃ t, exec .clear State.reset = .next t :=
  ⟨reset_inv [], reset_ready, by decide, by decide, _, rfl⟩

theorem witness_ResetConstructsTheBlock :
    (Config.ardt 8).width? = some .eight ∧ (Config.ardt 5).n ≠ 4 ∧ (Config.ardt 5).n ≠ 8 := by decide

theorem witness_ResetLeavesTheFault :
    ({ faultedState with host := [.reset] } : State).host = .reset :: [] ∧
    ({ faultedState with host := [.reset] } : State).config.width? = some .four := by decide

theorem witness_StepKeepsTheInvariant :
    (writes 0x02 State.reset).Inv ∧ (writes 0x02 State.reset).PulseDisciplined ∧
    ∃ t, step (writes 0x02 State.reset) = .next t :=
  ⟨reset_inv _, reset_disciplined _, _, rfl⟩

theorem witness_StepKeepsThePulseDiscipline :
    State.reset.Inv ∧ State.reset.PulseDisciplined ∧ ∃ t, step State.reset = .next t :=
  ⟨reset_inv [], reset_disciplined [], _, rfl⟩

theorem witness_ExecKeepsTheInvariant :
    State.reset.Inv ∧ State.reset.PulseDisciplined ∧ ∃ t, exec (.wData 0x41) State.reset = .next t :=
  ⟨reset_inv [], reset_disciplined [], _, rfl⟩

theorem witness_BusWidthNeverChanges : ∃ t, step State.reset = .next t := ⟨_, rfl⟩

theorem witness_EventsArePerformedInOrder :
    (writes 0x02 State.reset).Inv ∧ (∃ t, step (writes 0x02 State.reset) = .next t) ∧
    ∀ rest, (writes 0x02 State.reset).host ≠ .reset :: rest :=
  ⟨reset_inv _, ⟨_, rfl⟩, by intro rest h; cases h⟩

theorem witness_FaultHaltsTheBlock :
    (writes 0x02 faultedState).Inv ∧ (writes 0x02 faultedState).status.fault = true ∧
    (∀ rest, (writes 0x02 faultedState).host ≠ .reset :: rest) ∧ ∃ t, step (writes 0x02 faultedState) = .next t :=
  ⟨faulted_inv _, rfl, by intro rest h; (cases h), _, rfl⟩

theorem witness_ShadowsHoldWhileBusy :
    busyState.status.busy = true ∧ (∀ rest, busyState.host ≠ .reset :: rest) ∧ ∃ t, step busyState = .next t :=
  ⟨rfl, by intro rest h; (cases h), _, rfl⟩

theorem witness_RequestRunsToCompletion : busyState.seq ≠ [] ∧ busyState.host = [] := by decide

theorem witness_StepRunsTheDecodedRequest :
    (writes 0x02 State.reset).Ready .four ∧
    (writes 0x02 State.reset).host = .write (writes 0x02 State.reset).config.regBase 0x02 :: [] ∧
    decodeRequest ((writes 0x02 State.reset).rq ++ [0x02]) = .complete .clear [] :=
  ⟨⟨by decide, by decide, by decide⟩, rfl, by decide⟩

theorem witness_ReqWriteIsKeptHeldOrDiscarded :
    ((writes 0x04 State.reset).host = .write (writes 0x04 State.reset).config.regBase 0x04 :: [] ∧
      (writes 0x04 State.reset).Ready .four ∧
      decodeRequest ((writes 0x04 State.reset).rq ++ [0x04]) = .incomplete) ∧
    ((writes 0x04 busyState).host = .write (writes 0x04 busyState).config.regBase 0x04 :: [] ∧
      (writes 0x04 busyState).status.fault = false ∧ (writes 0x04 busyState).status.busy = true) ∧
    ((writes 0x04 faultedState).host = .write (writes 0x04 faultedState).config.regBase 0x04 :: [] ∧
      (writes 0x04 faultedState).status.fault = true) :=
  ⟨⟨rfl, ⟨by decide, by decide, by decide⟩, by decide⟩, ⟨rfl, rfl, rfl⟩, rfl, rfl⟩

theorem witness_ReservedOpcodeFaults (b : Byte) :
    (writes b State.reset).Ready .four ∧ (writes b State.reset).rq = [] ∧
    (writes b State.reset).host = .write (writes b State.reset).config.regBase b :: [] :=
  ⟨⟨rfl, rfl, rfl⟩, rfl, rfl⟩

/-- The bounds of the reserved ranges (R73) are reserved, and the opcodes beside them are not. -/
theorem witness_ReservedOpcodeFaults_bounds :
    [0x00, 0x08, 0x0F, 0x18, 0xFF].all (fun b => (Opcode.ofByte b).isNone) = true ∧
    [0x01, 0x07, 0x10, 0x17].all (fun b => (Opcode.ofByte b).isSome) = true := by decide

theorem witness_BlockStepPerformsTheHeadEvent : busyState.host = [] ∧ busyState.seq = .wait 5 :: [] := by decide

theorem witness_IdleBlockWaits : State.reset.host = [] ∧ State.reset.seq = [] := by decide

theorem witness_HostReadReturnsTheRegister :
    ({ State.reset with host := [.read 0xFF] } : State).host =
      .read (State.reset.config.regBase + (0xFF : Byte).toNat) :: [] := by decide

theorem witness_HostWriteElsewhereHasNoEffect :
    (0x01 : Byte) ≠ 0x00 ∧ ({ State.reset with host := [.write 1 0x55] } : State).host =
      .write (State.reset.config.regBase + (0x01 : Byte).toNat) 0x55 :: [] := by decide

theorem witness_OtherAgentsAreRefused :
    ({ State.reset with host := [.secondAgentWrite 0 2] } : State).host = .secondAgentWrite 0 2 :: [] ∧
    ({ State.reset with host := [.foreignDrive .e true] } : State).host = .foreignDrive .e true :: [] ∧
    State.reset.config.regBase + 256 ≤ 256 ∧
    ({ State.reset with host := [.read 256] } : State).host = .read 256 :: [] := by decide

theorem witness_UnreadyBlockRunsNoRequest :
    faultedState.status.fault = true ∧ encode .clear = .request [0x02] ∧ busyState.status.fault = false ∧
    busyState.status.busy = true := by decide

theorem witness_SetbwAcceptsTheBlocksWidth : State.reset.Ready .four ∧ State.reset.Inv ∧
    eightState.Ready .eight ∧ eightState.Inv := ⟨reset_ready, reset_inv [], eight_ready, eight_inv⟩

theorem witness_SetbwRefusesOtherWidths : State.reset.Ready .four ∧ (8 : Byte) ≠ BitVec.ofNat 8 BusWidth.four.lines ∧
    (5 : Byte) ≠ BitVec.ofNat 8 BusWidth.four.lines := ⟨reset_ready, by decide, by decide⟩

theorem witness_SetlinesSetsTheTwoLineFlag : State.reset.Ready .four ∧ ((2 : Byte) = 1 ∨ (2 : Byte) = 2) ∧
    (3 : Byte) ≠ 1 ∧ (3 : Byte) ≠ 2 := ⟨reset_ready, by decide, by decide, by decide⟩

theorem witness_SetfontSetsTheFontFlag : eightState.Ready .eight ∧ ((0x0B : Byte) = 0x08 ∨ (0x0B : Byte) = 0x0B) ∧
    (0x0A : Byte) ≠ 0x08 ∧ (0x0A : Byte) ≠ 0x0B := ⟨eight_ready, by decide, by decide, by decide⟩

theorem witness_DisplayControlSettersSetTheirFlag : State.reset.Ready .four := reset_ready

theorem witness_DisplayModeSettersSetTheirFlag : eightState.Ready .eight := eight_ready

theorem witness_BoolSettersRefuseOtherBytes : State.reset.Ready .four ∧ (2 : Byte) ≠ 0 ∧ (2 : Byte) ≠ 1 :=
  ⟨reset_ready, by decide, by decide⟩

theorem witness_InitOnFourLinesStartsTheHandshake : State.reset.Ready .four ∧ ((2 : Byte) = 1 ∨ (2 : Byte) = 2) :=
  ⟨reset_ready, by decide⟩

theorem witness_InitOnEightLinesStartsTheHandshake : eightState.Ready .eight ∧ ((1 : Byte) = 1 ∨ (1 : Byte) = 2) :=
  ⟨eight_ready, by decide⟩

theorem witness_InitRefusesOtherRowCounts : State.reset.Ready .four ∧ (0 : Byte) ≠ 1 ∧ (0 : Byte) ≠ 2 :=
  ⟨reset_ready, by decide, by decide⟩

theorem witness_ClearSendsItsCommandAndWaits : State.reset.Ready .four ∧
    ({ State.reset with seq := [.wait 2000] } : State).seq = [.wait State.reset.config.tClear] :=
  ⟨reset_ready, by decide⟩

theorem witness_HomeSendsItsCommandAndWaits : eightState.Ready .eight ∧
    ({ eightState with seq := [.wait 2000] } : State).seq = [.wait eightState.config.tHome] ∧
    (State.reset.lines.e = false ∧ State.reset.lines.d.length = 4) ∧
    (eightState.lines.e = false ∧ eightState.lines.d.length = 8) :=
  ⟨eight_ready, by decide, by decide, by decide⟩

theorem witness_MoveSendsTheCursorAddress : State.reset.Ready .four := reset_ready

/-- Row 2, and column 0x40 in a legal row. -/
theorem witness_MoveChecksRowThenColumn : State.reset.Ready .four ∧ (1 : Byte) < 2 ∧
    ¬ (1 : Byte) < 1 ∧ (0x3F : Byte) < 0x40 := ⟨reset_ready, by decide, by decide, by decide⟩

theorem witness_PrintSendsItsBytesInOrder : State.reset.Ready .four ∧ State.reset.seq = [] := ⟨reset_ready, rfl⟩

theorem witness_CglyphSendsAddressAndRows : eightState.Ready .eight := eight_ready

theorem witness_SglyphPrintsItsIndex : State.reset.Ready .four := reset_ready

theorem witness_GlyphIndexAboveSevenFaults : State.reset.Ready .four ∧ (7 : Byte) < 8 := ⟨reset_ready, by decide⟩

theorem witness_RequestsLeaveTheRestAlone : encode (.setdisp 0) = .request [0x13, 0x00] ∧
    ∃ t, exec (.setdisp 0) State.reset = .next t := ⟨by decide, _, rfl⟩

theorem witness_WireRowsEmitTheirByte :
    State.reset.config.width? = some .four ∧ State.reset.status.fault = false := by decide

theorem witness_WireNibblesAreLoneTransfers :
    (State.reset.config.width? = some .four ∧ State.reset.status.fault = false) ∧
    (eightState.config.width? = some .eight ∧ eightState.status.fault = false) := by decide

theorem witness_TransferLatchesItsValueOnce :
    State.reset.lines.d.length = 4 ∧ State.reset.lines.e = false := by decide

theorem witness_HighNibbleGoesFirst :
    (State.reset.lines.d.length = BusWidth.four.lines ∧ State.reset.lines.e = false) ∧
    (eightState.lines.d.length = BusWidth.eight.lines ∧ eightState.lines.e = false) := by decide

theorem witness_RequestsTakeTheirLeastTime : (List.replicate 8 (0x1C : Byte)).length = 8 := by decide

theorem witness_ReceiverInPhaseGetsEveryByte :
    State.reset.config.wiring = (Config.ardt BusWidth.four.lines).wiring ∧
    State.reset.lines.d.length = BusWidth.four.lines ∧ State.reset.lines.e = false ∧
    someReceiver.eightBit = decide (BusWidth.four = .eight) ∧ someReceiver.high = none := by decide

theorem witness_InitSynchronisesEveryReceiver :
    State.reset.Inv ∧ State.reset.Ready .four ∧
    State.reset.config.wiring = (Config.ardt BusWidth.four.lines).wiring ∧
    ((2 : Byte) = 1 ∨ (2 : Byte) = 2) ∧ ∃ t, exec (.init 16 2) State.reset = .next t :=
  ⟨reset_inv [], reset_ready, by decide, by decide, _, rfl⟩

end Sys2Proof.Tests
end

section
/-! PROOFS. The enable line: every bus item is whole pulses, so an event list made of bus items starts and ends between
transfers, with E low (43_bus_framing.md R182, R188). -/

namespace Sys2Proof.Machine

/-- The level E has in a phase of the pulse. -/
def PulsePhase.enable : PulsePhase → Bool
  | .rest | .low | .lowHeld | .fallen => false
  | .high | .highHeld => true

/-- An event the discipline allows leaves E at the level of the next phase. -/
theorem PulsePhase.enable_after {c : Config} {phase next : PulsePhase} {event : BusEvent} {l : Lines}
    (h : phase.after c event = some next) (hl : l.e = phase.enable) : (l.apply event).e = next.enable := by
  unfold PulsePhase.after at h
  split at h <;> (try split at h) <;> cases h <;> simp_all [PulsePhase.enable]

theorem PulsePhase.run_cons (c : Config) (phase : PulsePhase) (event : BusEvent) (events : List BusEvent) :
    phase.run c (event :: events) = (phase.after c event).bind fun next => next.run c events := by
  rw [PulsePhase.run]
  cases phase.after c event <;> rfl

theorem PulsePhase.run_append (c : Config) (phase : PulsePhase) (xs ys : List BusEvent) :
    phase.run c (xs ++ ys) = (phase.run c xs).bind fun next => next.run c ys := by
  induction xs generalizing phase with
  | nil => rfl
  | cons event xs ih =>
    rw [List.cons_append, PulsePhase.run_cons, PulsePhase.run_cons, Option.bind_assoc]
    simp only [ih]

/-- Events the discipline allows leave E at the level of the phase they end in. -/
theorem PulsePhase.enable_run {c : Config} {phase last : PulsePhase} {events : List BusEvent} {l : Lines}
    (h : phase.run c events = some last) (hl : l.e = phase.enable) : (l.applyAll events).e = last.enable := by
  induction events generalizing phase l with
  | nil => cases h; exact hl
  | cons event events ih =>
    rw [PulsePhase.run_cons, Option.bind_eq_some_iff] at h
    obtain ⟨next, hnext, hrun⟩ := h
    exact ih hrun (PulsePhase.enable_after hnext hl)

theorem PulsePhase.run_dataDrives (c : Config) {n : Nat} (v : BitVec n) :
    PulsePhase.run c .rest (dataDrives v) = some .rest := by
  unfold dataDrives
  generalize List.range n = lines
  induction lines with
  | nil => rfl
  | cons i lines ih => exact ih

theorem PulsePhase.run_enablePulse (c : Config) : PulsePhase.run c .rest (enablePulse c) = some .rest := by
  simp [enablePulse, PulsePhase.run, PulsePhase.after]

theorem PulsePhase.run_transfer (c : Config) {n : Nat} (v : BitVec n) :
    PulsePhase.run c .rest (transfer c v) = some .rest := by
  rw [transfer, PulsePhase.run_append, PulsePhase.run_dataDrives]
  exact PulsePhase.run_enablePulse c

theorem PulsePhase.run_writeByte (c : Config) (w : BusWidth) (rs : Bool) (b : Byte) :
    PulsePhase.run c .rest (writeByte c w rs b) = some .rest := by
  cases w with
  | four =>
    show PulsePhase.run c .rest (transfer c (highNibble b) ++ transfer c (lowNibble b)) = some .rest
    rw [PulsePhase.run_append, PulsePhase.run_transfer]
    exact PulsePhase.run_transfer c _
  | eight => exact PulsePhase.run_transfer c b

theorem BusItem.run_events (c : Config) (w : BusWidth) (item : BusItem) :
    PulsePhase.run c .rest (item.events c w) = some .rest := by
  cases item with
  | command b => exact PulsePhase.run_writeByte c w false b
  | data b => exact PulsePhase.run_writeByte c w true b
  | nibble v => exact PulsePhase.run_transfer c v
  | rsLow => rfl
  | gap t => rfl

theorem MadeOfItems.run {c : Config} {w : BusWidth} {events : List BusEvent} :
    MadeOfItems c w events → PulsePhase.run c .rest events = some .rest
  | ⟨items, hitems⟩ => by
    subst hitems
    induction items with
    | nil => rfl
    | cons item items ih =>
      rw [List.flatMap_cons, PulsePhase.run_append, BusItem.run_events]
      exact ih

/-- E is low after events made of bus items, if it was low before them. -/
theorem MadeOfItems.enableRests {c : Config} {w : BusWidth} {events : List BusEvent} (h : MadeOfItems c w events)
    {l : Lines} (hl : l.e = false) : (l.applyAll events).e = false :=
  PulsePhase.enable_run h.run hl

end Sys2Proof.Machine
end

section
/-! PROOFS. The invariant of a run: it holds of a constructed block, and each operation of the block keeps it
(10_state.md R27 to R36). -/

namespace Sys2Proof.Machine

/-- The shape of R101 has the hardwired bits of R23 to R25. -/
theorem State.ShadowsShaped.hardwired {s : State} {w : BusWidth} (h : s.ShadowsShaped w) : s.Hardwired where
  fs := by
    have hmask : s.fs &&& 0xE3 = (s.fs &&& 0xF3) &&& 0xE3 := by rw [BitVec.and_assoc]; rfl
    rw [hmask, h.fs]
    cases w <;> rfl
  dc := h.dc
  dm := h.dm

/-! ## Construction and reset -/

@[simp] theorem State.construct_config (c : Config) : (State.construct c).config = c := by
  unfold State.construct
  split <;> rfl

theorem State.construct_of_legal {c : Config} {w : BusWidth} (h : c.width? = some w) :
    State.construct c = State.constructed c w := by
  unfold State.construct
  rw [h]

theorem State.constructed_shadowsShaped (c : Config) (w : BusWidth) : (State.constructed c w).ShadowsShaped w := by
  cases w <;> constructor <;> simp [State.constructed, functionSetBase]

theorem State.constructed_inv {c : Config} {w : BusWidth} (hw : c.width? = some w) : (State.constructed c w).Inv where
  built h := nomatch hw.symm.trans h
  busy := by simp [State.constructed]
  part := by simp [State.constructed]
  unfinished := rfl
  quiet h := nomatch h
  noError _ := ⟨rfl, rfl⟩
  error h := nomatch h
  shadows w' h := by cases hw.symm.trans h; exact constructed_shadowsShaped c w
  hardwired := (constructed_shadowsShaped c w).hardwired
  levels w' h := by cases hw.symm.trans h; rfl
  enableRests _ _ := rfl
  bounds _ hp := nomatch hp
  draws := ⟨.nil, fun _ hp => nomatch hp⟩
  silent _ := rfl

/-- The state after reset meets the invariant, whatever the bus width (R231, R250). -/
theorem State.construct_inv (c : Config) : (State.construct c).Inv := by
  cases hw : c.width? with
  | some w => rw [State.construct_of_legal hw]; exact State.constructed_inv hw
  | none =>
    obtain ⟨hfs, hdc, hdm⟩ := construct_hardwired hw
    have hconfig : (State.construct c).config.width? = none := by rw [State.construct_config, hw]
    have hlegal : ∀ {P : BusWidth → Prop} w, (State.construct c).config.width? = some w → P w :=
      fun w h => nomatch hconfig.symm.trans h
    refine {
      shadows := hlegal, levels := hlegal, enableRests := hlegal, hardwired := ⟨hfs, hdc, hdm⟩,
      error := fun _ => ⟨.badBusWidth, by simp [State.construct, hw]⟩,
      built := ?_, busy := ?_, part := ?_, unfinished := ?_, quiet := ?_, noError := ?_,
      bounds := ?_, draws := ?_, silent := ?_ } <;>
      simp [State.construct, hw]

/-! ## The clauses about the shadows -/

/-- The shadows of a state keep their shape in every state that has them and the same parameters. -/
theorem State.Inv.shadows_same {s t : State} (h : s.Inv) (hc : t.config = s.config) (hfs : t.fs = s.fs)
    (hdc : t.dc = s.dc) (hdm : t.dm = s.dm) (w : BusWidth) (hw : t.config.width? = some w) : t.ShadowsShaped w := by
  obtain ⟨fs, dc, dm⟩ := h.shadows w (hc ▸ hw)
  exact ⟨hfs ▸ fs, hdc ▸ dc, hdm ▸ dm⟩

theorem State.Inv.hardwired_same {s t : State} (h : s.Inv) (hfs : t.fs = s.fs) (hdc : t.dc = s.dc)
    (hdm : t.dm = s.dm) : t.Hardwired := by
  obtain ⟨fs, dc, dm⟩ := h.hardwired
  exact ⟨hfs ▸ fs, hdc ▸ dc, hdm ▸ dm⟩

/-! ## The host's fields and the request buffer -/

/-- The invariant does not speak of the host's own fields. -/
theorem State.Inv.withHost {s : State} (h : s.Inv) (host : List HostAction) (answers : List Byte) :
    { s with host := host, answers := answers : State }.Inv :=
  { h with
    shadows := h.shadows_same rfl rfl rfl rfl
    hardwired := h.hardwired_same rfl rfl rfl }

theorem State.Inv.rebuild (s : State) : s.rebuild.Inv := by
  have h := State.construct_inv s.config
  have htr : (State.construct s.config).tr = [] := by
    unfold State.construct
    split <;> rfl
  exact { h with
    shadows := h.shadows_same rfl rfl rfl rfl
    hardwired := h.hardwired_same rfl rfl rfl
    draws := by simp [htr] }

/-- A byte that leaves the request unfinished joins the buffer (R32). -/
theorem State.Inv.pushByte {s : State} (h : s.Inv) (hf : s.status.fault = false) {b : Byte}
    (hb : decodeRequest (s.rq ++ [b]) = .incomplete) :
    { s with rq := s.rq ++ [b], status := { s.status with rqPart := true } : State }.Inv :=
  { h with
    shadows := h.shadows_same rfl rfl rfl rfl
    hardwired := h.hardwired_same rfl rfl rfl
    part := by simp
    unfinished := hb
    quiet := fun hfault => nomatch hf.symm.trans hfault }

/-! ## Block steps -/

/-- A performed event takes a draw above all those before it (R33). -/
theorem State.Inv.draws_perform {s : State} (h : s.Inv) (event : BusEvent) :
    ((s.perform event).tr.map Performed.draw).Pairwise (· < ·) ∧
      ∀ p ∈ (s.perform event).tr, p.draw < (s.perform event).draws := by
  obtain ⟨hordered, hbelow⟩ := h.draws
  simp only [State.perform_tr, State.perform_draws, List.map_append, List.map_cons, List.map_nil]
  refine ⟨List.pairwise_append.mpr ⟨hordered, List.pairwise_singleton _ _, ?_⟩, ?_⟩
  · simpa using hbelow
  · intro p hp
    rcases List.mem_append.mp hp with hp | hp
    · exact Nat.lt_succ_of_lt (hbelow p hp)
    · rw [List.mem_singleton.mp hp]; exact Nat.lt_succ_self _

/-- A performed event moves the lines as the trace it joins says (R36). -/
theorem State.Inv.levels_perform {s : State} (h : s.Inv) (event : BusEvent) {w : BusWidth}
    (hw : s.config.width? = some w) :
    (s.perform event).lines = (Lines.atReset w).replay (s.perform event).tr := by
  rw [State.perform_lines, State.perform_tr, Lines.replay_append, ← h.levels w hw]
  rfl

/-- A block with pending events is not faulted. -/
theorem State.Inv.fault_of_pending {s : State} (h : s.Inv) (hs : s.seq ≠ []) : s.status.fault = false := by
  cases hf : s.status.fault with
  | false => rfl
  | true => exact absurd (h.quiet hf).1 hs

/-- A block with pending events has a legal bus width. -/
theorem State.Inv.width_of_pending {s : State} (h : s.Inv) (hs : s.seq ≠ []) : s.config.width? ≠ none :=
  fun hw => nomatch (h.fault_of_pending hs).symm.trans (h.built hw)

/-- Performing the head event keeps the invariant, if BUSY says whether events are left; INITDONE is in no clause. -/
theorem State.Inv.performHead {s : State} (h : s.Inv) {event : BusEvent} {rest : List BusEvent}
    (hs : s.seq = event :: rest) (busy initDone : Bool) (hb : busy = true ↔ rest ≠ []) :
    { (s.perform event) with
      seq := rest
      status := { s.status with busy := busy, initDone := initDone } : State }.Inv := by
  have hpending : s.seq ≠ [] := by simp [hs]
  have hf := h.fault_of_pending hpending
  exact { h with
    shadows := h.shadows_same rfl rfl rfl rfl
    hardwired := h.hardwired_same rfl rfl rfl
    busy := hb
    quiet := fun hfault => nomatch hf.symm.trans hfault
    levels := fun w hw => h.levels_perform event hw
    enableRests := fun w hw => by simpa [hs] using h.enableRests w hw
    bounds := fun p _ => minTime_le_duration p
    draws := h.draws_perform event
    silent := fun hw => absurd hw (h.width_of_pending hpending) }

theorem State.Inv.blockStep {s : State} (h : s.Inv) : s.blockStep.Inv := by
  rcases s.blockStep_cases with ⟨_, heq⟩ | ⟨event, hs, heq⟩ | ⟨event, next, rest, hs, heq⟩ <;> rw [heq]
  · exact h
  · exact h.performHead hs false _ (by simp)
  · have hbusy : s.status.busy = true := h.busy.mpr (by simp [hs])
    exact h.performHead hs s.status.busy s.status.initDone (by simp [hbusy])

/-! ## Requests and bus traffic -/

theorem State.Inv.seq_of_idle {s : State} (h : s.Inv) (hb : s.status.busy = false) : s.seq = [] := by
  by_contra hs
  exact nomatch hb.symm.trans (h.busy.mpr hs)

/-- Fault entry of an idle block keeps the invariant (R223). -/
theorem State.Inv.raise {s : State} (h : s.Inv) (hb : s.status.busy = false) (error : ConfigError) (opcode : Byte) :
    (s.raise error opcode).Inv :=
  { h with
    shadows := h.shadows_same rfl rfl rfl rfl
    hardwired := h.hardwired_same rfl rfl rfl
    built := fun _ => rfl
    part := by simp
    unfinished := rfl
    quiet := fun _ => ⟨h.seq_of_idle hb, rfl⟩
    noError := fun hf => nomatch hf
    error := fun _ => ⟨error, rfl⟩ }

/-- Acceptance in one form, whether the event list is empty or not (R31). -/
theorem State.accept_eq (s : State) (op : Opcode) (events : List BusEvent) :
    s.accept op events = { s with
      rq := []
      curop := op.code
      seq := if events = [] then s.seq else events
      status :=
        { s.status with
          busy := !events.isEmpty
          rqPart := false
          initDone := s.status.initDone || (events.isEmpty && op.code == Opcode.init.code) } } := by
  cases events <;> simp [State.accept, State.complete]

/-- Acceptance on a ready block keeps the invariant, if the updated shadows keep their shape (R31, R101). -/
theorem State.Inv.accept {s t : State} {w : BusWidth} {fs dc dm : Byte} {op : Opcode} {events : List BusEvent}
    (h : s.Inv) (hr : s.Ready w) (ha : AcceptedAs s t w fs dc dm op events) : t.Inv := by
  obtain ⟨rfl, hitems, hshaped⟩ := ha
  have hseq := h.seq_of_idle hr.busy
  have hshadows := hshaped (h.shadows w hr.width)
  rw [State.accept_eq]
  exact { h with
    busy := by simp [hseq]
    part := by simp
    unfinished := rfl
    quiet := fun hfault => nomatch hr.fault.symm.trans hfault
    shadows := fun w' hw' => by
      cases hr.width.symm.trans hw'
      exact ⟨hshadows.fs, hshadows.dc, hshadows.dm⟩
    hardwired := ⟨hshadows.hardwired.fs, hshadows.dc, hshadows.dm⟩
    enableRests := fun w' hw' => by
      have hlow : s.lines.e = false := by simpa [hseq] using h.enableRests w' hw'
      show (s.lines.applyAll (if events = [] then s.seq else events)).e = false
      split
      · simpa [hseq] using hlow
      · exact hitems.enableRests hlow }

/-- Bus traffic of a block that is not faulted keeps the invariant. -/
theorem State.Inv.emit {s : State} {w : BusWidth} {events : List BusEvent} (h : s.Inv) (hf : s.status.fault = false)
    (hne : events ≠ []) (hitems : MadeOfItems s.config w events) : (s.emit events).Inv :=
  { h with
    shadows := h.shadows_same rfl rfl rfl rfl
    hardwired := h.hardwired_same rfl rfl rfl
    busy := by simp [hne]
    quiet := fun hfault => nomatch hf.symm.trans hfault
    enableRests := fun w' hw' => by
      simpa using hitems.enableRests (h.enableRests w' hw') }

/-- Every next state of a meaning meets the invariant. -/
theorem State.Inv.exec {i : Instr} {s t : State} (h : s.Inv) (he : exec i s = .next t) : t.Inv := by
  rcases exec_cases he with ⟨_, rfl⟩ | ⟨w, error, op, hr, rfl⟩ | ⟨w, fs, dc, dm, op, events, hr, ha⟩ |
    ⟨w, events, _, _, hf, hne, hitems, rfl⟩
  · exact h
  · exact h.raise hr.busy error op
  · exact h.accept hr ha
  · exact h.emit hf hne hitems

end Sys2Proof.Machine
end

section
/-! PROOFS. Every step keeps the invariant of a run, and every meaning keeps it and the pulse discipline. -/

namespace Sys2Proof.Machine

/-! ## The request a REQ write completes -/

/-- Acceptance empties the request buffer, so what was in it plays no part. -/
theorem AcceptedAs.forgetBuffer {s t : State} {bytes : List Byte} {w : BusWidth} {fs dc dm : Byte} {op : Opcode}
    {events : List BusEvent} (h : AcceptedAs { s with rq := bytes } t w fs dc dm op events) :
    AcceptedAs s t w fs dc dm op events where
  result := by rw [h.result]; cases events <;> rfl
  items := h.items
  shaped hs := by
    obtain ⟨hfs, hdc, hdm⟩ := h.shaped ⟨hs.fs, hs.dc, hs.dm⟩
    exact ⟨hfs, hdc, hdm⟩

/-- A whole request in the buffer, which the invariant shuts out, is gone once it has run (R31, R32). -/
theorem State.Inv.exec_completed {s t : State} (h : s.Inv) (hf : s.status.fault = false) {bytes rest : List Byte}
    {i : Instr} (hd : decodeRequest bytes = .complete i rest) (he : Machine.exec i { s with rq := bytes } = .next t) :
    t.Inv := by
  rcases exec_cases he with ⟨hstuck, _⟩ | ⟨w, error, op, hr, rfl⟩ | ⟨w, fs, dc, dm, op, events, hr, ha⟩ |
    ⟨_, _, hn, _⟩
  · have hfault : s.status.fault = true := hstuck.elim id h.built
    exact nomatch hf.symm.trans hfault
  · exact h.raise hr.busy error op
  · exact h.accept ⟨hr.width, hr.fault, hr.busy⟩ ha.forgetBuffer
  · obtain ⟨words, hw⟩ := requestBytes_of_decodeRequest hd
    exact nomatch hn.symm.trans hw

theorem State.Inv.writeReq {s t : State} (h : s.Inv) {b : Byte} (hw : s.writeReq b = .next t) : t.Inv := by
  rcases State.writeReq_cases hw with ⟨_, rfl⟩ | ⟨hf, hb, ⟨hd, rfl⟩ | ⟨op, _, rfl⟩ | ⟨i, rest, hd, he⟩⟩
  · exact h
  · exact h.pushByte hf hd
  · exact h.raise hb .badOpcode op
  · exact h.exec_completed hf hd he

/-- Every next state of a step meets the invariant. -/
theorem State.Inv.step {s t : State} (h : s.Inv) (hs : Machine.step s = .next t) : t.Inv := by
  rcases step_cases hs with ⟨_, rfl⟩ | ⟨rest, _, rfl⟩ | ⟨address, offset, rest, _, _, rfl⟩ |
    ⟨address, b, rest, _, _, _, rfl⟩ | ⟨address, b, rest, _, _, _, hw⟩ |
    ⟨address, b, offset, rest, _, _, _, rfl⟩ | ⟨rest, _, rfl⟩
  · exact h.blockStep
  · exact (h.withHost rest s.answers).blockStep
  · exact h.withHost rest _
  · exact h.blockStep
  · exact (h.withHost rest s.answers).writeReq hw
  · exact h.withHost rest s.answers
  · exact State.Inv.rebuild _

/-! ## The pulse discipline -/

/-- Events made of bus items, put behind the pending ones, keep the discipline. -/
theorem State.PulseDisciplined.append {s t : State} {w : BusWidth} {events : List BusEvent} (h : s.PulseDisciplined)
    (hc : t.config = s.config) (htr : t.tr = s.tr) (hseq : t.seq = s.seq ++ events)
    (hitems : MadeOfItems s.config w events) : t.PulseDisciplined := by
  unfold State.PulseDisciplined at h ⊢
  rw [hc, htr, hseq, ← List.append_assoc, PulsePhase.run_append, h]
  exact hitems.run

/-- Every next state of a meaning keeps the discipline. -/
theorem State.PulseDisciplined.exec {i : Instr} {s t : State} (h : s.PulseDisciplined) (hinv : s.Inv)
    (he : Machine.exec i s = .next t) : t.PulseDisciplined := by
  rcases exec_cases he with ⟨_, rfl⟩ | ⟨w, error, op, _, rfl⟩ | ⟨w, fs, dc, dm, op, events, hr, rfl, hitems, _⟩ |
    ⟨w, events, _, _, _, _, hitems, rfl⟩
  · exact h
  · exact h
  · refine h.append (events := events) (State.accept_config _ _ _) (State.accept_tr _ _ _) ?_ hitems
    rw [State.accept_seq]
    cases events <;> simp [hinv.seq_of_idle hr.busy]
  · exact h.append rfl rfl rfl hitems

/-- Settles O11: each thing a step can do is a block step, a change of the host's fields, a REQ write or a reset, and
each of them keeps the invariant. -/
theorem stepKeepsTheInvariant : Obligations.StepKeepsTheInvariant := by
  unfold Obligations.StepKeepsTheInvariant
  intro s t hinv hstep
  exact hinv.step hstep

/-- Settles O13: a meaning discards, faults, accepts or emits, and what is accepted or emitted is made of bus items. -/
theorem execKeepsTheInvariant : Obligations.ExecKeepsTheInvariant := by
  unfold Obligations.ExecKeepsTheInvariant
  intro i s t hinv hpulse hexec
  exact ⟨hinv.exec hexec, hpulse.exec hinv hexec⟩

end Sys2Proof.Machine
end

section
/-! PROOFS. No step changes the parameters (10_state.md R20, R26). -/

namespace Sys2Proof.Machine

theorem exec_config {i : Instr} {s t : State} (h : exec i s = .next t) : t.config = s.config := by
  rcases exec_cases h with ⟨_, rfl⟩ | ⟨_, _, _, _, rfl⟩ | ⟨_, _, _, _, _, _, _, rfl, _, _⟩ | ⟨_, _, _, _, _, _, _, rfl⟩
  · rfl
  · rfl
  · exact State.accept_config _ _ _
  · rfl

theorem State.writeReq_config {s t : State} {b : Byte} (h : s.writeReq b = .next t) : t.config = s.config := by
  rcases State.writeReq_cases h with ⟨_, rfl⟩ | ⟨_, _, ⟨_, rfl⟩ | ⟨op, _, rfl⟩ | ⟨i, rest, _, he⟩⟩
  · rfl
  · rfl
  · rfl
  · exact (exec_config he).trans rfl

theorem step_config {s t : State} (h : step s = .next t) : t.config = s.config := by
  rcases step_cases h with ⟨_, rfl⟩ | ⟨rest, _, rfl⟩ | ⟨_, _, rest, _, _, rfl⟩ | ⟨_, b, rest, _, _, _, rfl⟩ |
    ⟨_, b, rest, _, _, _, hw⟩ | ⟨_, b, _, rest, _, _, _, rfl⟩ | ⟨rest, _, rfl⟩
  · exact State.blockStep_config _
  · exact State.blockStep_config _
  · rfl
  · exact State.blockStep_config _
  · exact (State.writeReq_config hw).trans rfl
  · rfl
  · simp

/-- R26, R51: CFG reads N. -/
theorem State.readRegister_cfg (s : State) : s.readRegister 0x07 = BitVec.ofNat 8 s.config.n := by
  simp [State.readRegister]

/-- Settles O14: every step keeps the parameters, and CFG is read from N alone. -/
theorem busWidthNeverChanges : Obligations.BusWidthNeverChanges := by
  unfold Obligations.BusWidthNeverChanges
  intro s t hstep
  have hc := step_config hstep
  exact ⟨hc, by rw [State.readRegister_cfg, State.readRegister_cfg, hc]⟩

end Sys2Proof.Machine
end

section
/-! PROOFS. What a step does with a silent host: the head event, and so the whole of a pending request (10_state.md R30,
R33). -/

namespace Sys2Proof.Machine

/-- STATUS once `rest` is what is still pending: with nothing pending the request is completed (R30, R134). -/
def State.statusBefore (s : State) (rest : List BusEvent) : Status :=
  if rest = [] then { s.status with busy := false, initDone := s.status.initDone || s.curop == 0x01 } else s.status

/-- A block step performs the head event, and completes the request with the last one. -/
theorem State.blockStep_of_pending {s : State} {event : BusEvent} {rest : List BusEvent} (hs : s.seq = event :: rest) :
    s.blockStep = { (s.perform event) with seq := rest, status := s.statusBefore rest } := by
  rcases s.blockStep_cases with ⟨hnil, _⟩ | ⟨_, hone, heq⟩ | ⟨_, _, _, hmore, heq⟩
  · exact nomatch hs.symm.trans hnil
  · cases hs.symm.trans hone; exact heq
  · cases hs.symm.trans hmore; exact heq

theorem step_of_silent {s : State} (hh : s.host = []) : step s = .next s.blockStep := by
  simp [step, State.nextStep, hh]

/-- Settles O22: with a silent host a step is a block step, which performs the head event; the level of a line follows
from the event's constructors. -/
theorem blockStepPerformsTheHeadEvent : Obligations.BlockStepPerformsTheHeadEvent := by
  unfold Obligations.BlockStepPerformsTheHeadEvent
  intro s event rest hh hs entry
  have hmin : (entry.event.minTime : ℝ) ≤ entry.duration := minTime_le_duration entry
  rw [step_of_silent hh, State.blockStep_of_pending hs]
  rcases event with ⟨_ | _ | i, v⟩ | t
  case drive.rs | drive.e | drive.d => exact ⟨by simpa [entry, BusEvent.minTime] using hmin, rfl⟩
  case wait => exact ⟨hmin, rfl⟩

/-! ## A whole request -/

/-- The trace entries of pending events, which take the next draws in order. -/
def State.pendingEntries (s : State) : List Performed :=
  (s.seq.zipIdx s.draws).map fun p => { event := p.1, draw := p.2 }

/-- The state that performing every pending event leaves. -/
def State.finished (s : State) : State :=
  { s with
    lines := s.lines.applyAll s.seq
    tr := s.tr ++ s.pendingEntries
    draws := s.draws + s.seq.length
    seq := []
    status := s.statusBefore [] }

theorem State.pendingEntries_events (s : State) : s.pendingEntries.map Performed.event = s.seq := by
  simp only [State.pendingEntries, List.map_map]
  exact List.zipIdx_map_fst _ _

theorem State.blockStep_finished_of_last {s : State} {event : BusEvent} (hs : s.seq = [event]) :
    s.blockStep = s.finished := by
  rw [State.blockStep_of_pending hs]
  simp [State.finished, State.pendingEntries, hs, State.perform]

/-- A block step that is not the last one leaves the same state to be reached. -/
theorem State.finished_blockStep {s : State} {event next : BusEvent} {rest : List BusEvent}
    (hs : s.seq = event :: next :: rest) : s.blockStep.finished = s.finished := by
  rw [State.blockStep_of_pending hs]
  simp [State.finished, State.pendingEntries, State.statusBefore, State.perform, hs, Nat.add_assoc, Nat.add_comm]

theorem run_succ_of_next {M : Host.Core} {s t : M.State} (h : M.step s = .next t) (k : Nat) :
    M.run (k + 1) s = M.run k t := by
  rw [Host.Core.run, h]

/-- With a silent host, a step for each pending event performs them all. -/
theorem run_pending {s : State} {event : BusEvent} {rest : List BusEvent} (hs : s.seq = event :: rest)
    (hh : s.host = []) : core.run (rest.length + 1) s = .next s.finished := by
  induction rest generalizing s event with
  | nil =>
    rw [← State.blockStep_finished_of_last hs]
    exact run_succ_of_next (M := core) (step_of_silent hh) 0
  | cons next rest ih =>
    have hseq : s.blockStep.seq = next :: rest := by rw [State.blockStep_of_pending hs]
    have hhost : s.blockStep.host = [] := by rw [State.blockStep_host, hh]
    rw [← State.finished_blockStep hs, ← ih hseq hhost]
    exact run_succ_of_next (M := core) (step_of_silent hh) (rest.length + 1)

/-- Settles O18, by induction on the pending events: each step performs the head one. -/
theorem requestRunsToCompletion : Obligations.RequestRunsToCompletion := by
  unfold Obligations.RequestRunsToCompletion
  intro s hne hh
  obtain ⟨event, rest, hs⟩ := List.exists_cons_of_ne_nil hne
  refine ⟨s.finished, s.pendingEntries, ?_, rfl, rfl, s.pendingEntries_events, fun p _ => minTime_le_duration p,
    rfl, rfl, rfl, rfl, rfl, rfl⟩
  rw [hs]
  exact run_pending hs hh

end Sys2Proof.Machine
end

section
/-! PROOFS. REQ writes: which of them is a part of a request, runs one, is held, or is discarded (10_state.md R32). -/

namespace Sys2Proof.Machine

theorem registerOffset_regBase (c : Config) : registerOffset c c.regBase = some 0x00 := by
  simp [registerOffset]

/-- A REQ write is held, or handed to the block (R32, D33). -/
theorem step_of_reqWrite {s : State} {b : Byte} {rest : List HostAction}
    (hh : s.host = .write s.config.regBase b :: rest) :
    step s = if s.holdsWrite then .next s.blockStep else { s with host := rest }.writeReq b := by
  simp [step, State.nextStep, hh, State.hostStep, registerOffset_regBase]

theorem State.Ready.holdsWrite {s : State} {w : BusWidth} (hr : s.Ready w) : s.holdsWrite = false := by
  simp [State.holdsWrite, hr.busy]

/-- The byte that completes a request runs it (R31, R32). -/
theorem State.writeReq_of_complete {s : State} {w : BusWidth} (hr : s.Ready w) {b : Byte} {i : Instr}
    {rest : List Byte} (hd : decodeRequest (s.rq ++ [b]) = .complete i rest) :
    s.writeReq b = exec i { s with rq := s.rq ++ [b] } := by
  simp [State.writeReq, hr.fault, hr.busy, hd]

/-- A byte that leaves the request unfinished joins the buffer (R32). -/
theorem State.writeReq_of_incomplete {s : State} {w : BusWidth} (hr : s.Ready w) {b : Byte}
    (hd : decodeRequest (s.rq ++ [b]) = .incomplete) :
    s.writeReq b = .next { s with rq := s.rq ++ [b], status := { s.status with rqPart := true } } := by
  simp [State.writeReq, hr.fault, hr.busy, hd]

/-- A faulted block discards the byte (R224). -/
theorem State.writeReq_of_fault {s : State} (hf : s.status.fault = true) (b : Byte) : s.writeReq b = .next s := by
  simp [State.writeReq, hf]

theorem State.Ready.withHost {s : State} {w : BusWidth} (hr : s.Ready w) (host : List HostAction) :
    { s with host := host : State }.Ready w :=
  ⟨hr.width, hr.fault, hr.busy⟩

/-- Settles O19: a ready block does not hold the write, and the complete buffer runs. -/
theorem stepRunsTheDecodedRequest : Obligations.StepRunsTheDecodedRequest := by
  unfold Obligations.StepRunsTheDecodedRequest
  intro s w b rest i hr hh hd
  rw [step_of_reqWrite hh, hr.holdsWrite]
  exact State.writeReq_of_complete (hr.withHost rest) hd

/-- Settles O20: the three ways a REQ write runs no request, by what the block's state is. -/
theorem reqWriteIsKeptHeldOrDiscarded : Obligations.ReqWriteIsKeptHeldOrDiscarded := by
  unfold Obligations.ReqWriteIsKeptHeldOrDiscarded
  intro s w b rest hh
  rw [step_of_reqWrite hh]
  refine ⟨fun hr hd => ?kept, fun hf hb => ⟨?held, State.blockStep_host s⟩, fun hf => ?discarded⟩
  case kept =>
    rw [hr.holdsWrite]
    exact State.writeReq_of_incomplete (hr.withHost rest) hd
  case held => simp [State.holdsWrite, hf, hb]
  case discarded =>
    have hfree : s.holdsWrite = false := by simp [State.holdsWrite, hf]
    rw [hfree]
    exact State.writeReq_of_fault (s := { s with host := rest }) hf b

end Sys2Proof.Machine
end

section
/-! PROOFS. The frame of the requests: a request moves the flags of its own setter and no other bit of the shadows, and
everything else it leaves follows from what a request can do (10_state.md R31, 40_command_registers.md R101, R111). -/

namespace Sys2Proof.Machine

/-! ## The flags a request may move -/

/-- The flags of FS a request sets (R102 to R104, R131). -/
def flagsOfFS : Instr → Byte
  | .setbw _ => flagEightBit
  | .setlines _ | .init _ _ => flagTwoLine
  | .setfont _ => flagTallFont
  | _ => 0

/-- The flags of DC a request sets (R105 to R107). -/
def flagsOfDC : Instr → Byte
  | .setdisp _ => flagDisplayOn
  | .setcurs _ => flagCursorOn
  | .setblink _ => flagBlinkOn
  | _ => 0

/-- The flags of DM a request sets (R108, R109). -/
def flagsOfDM : Instr → Byte
  | .setdir _ => flagEntryLeft
  | .setshift _ => flagEntryShift
  | _ => 0

/-- Two values of a register differ in bits of the mask only. -/
def DiffersWithin (mask old new : Byte) : Prop :=
  ∀ k < 8, new.getLsbD k ≠ old.getLsbD k → mask.getLsbD k = true

theorem DiffersWithin.refl (mask reg : Byte) : DiffersWithin mask reg reg := fun _ _ h => absurd rfl h

/-- R100: SetFlag moves the bits of its mask only. -/
theorem DiffersWithin.setFlag (mask reg : Byte) (v : Bool) : DiffersWithin mask reg (setFlag reg mask v) := by
  intro k hk hne
  cases v
  · exact (by simpa [Machine.setFlag, hk] using hne : reg[k] = true ∧ mask[k] = true).2
  · exact (by simpa [Machine.setFlag, hk] using hne : mask[k] = true ∧ reg[k] = false).1

/-! ## The frame of a request -/

/-- Only shadows differ between two states, and only in the flags of a request: what its register updates may do. -/
structure UpdatesOwnFlags (i : Instr) (s t : State) : Prop where
  rest : t = { s with fs := t.fs, dc := t.dc, dm := t.dm }
  fs : DiffersWithin (flagsOfFS i) s.fs t.fs
  dc : DiffersWithin (flagsOfDC i) s.dc t.dc
  dm : DiffersWithin (flagsOfDM i) s.dm t.dm

theorem UpdatesOwnFlags.refl (i : Instr) (s : State) : UpdatesOwnFlags i s s :=
  ⟨rfl, .refl _ _, .refl _ _, .refl _ _⟩

theorem UpdatesOwnFlags.setFS (i : Instr) (s : State) (v : Bool) :
    UpdatesOwnFlags i s { s with fs := Machine.setFlag s.fs (flagsOfFS i) v } :=
  ⟨rfl, .setFlag _ _ v, .refl _ _, .refl _ _⟩

theorem UpdatesOwnFlags.setDC (i : Instr) (s : State) (v : Bool) :
    UpdatesOwnFlags i s { s with dc := Machine.setFlag s.dc (flagsOfDC i) v } :=
  ⟨rfl, .refl _ _, .setFlag _ _ v, .refl _ _⟩

theorem UpdatesOwnFlags.setDM (i : Instr) (s : State) (v : Bool) :
    UpdatesOwnFlags i s { s with dm := Machine.setFlag s.dm (flagsOfDM i) v } :=
  ⟨rfl, .refl _ _, .refl _ _, .setFlag _ _ v⟩

/-- What a request leaves alone, whether it is discarded, faults or is accepted. -/
structure RequestFrame (i : Instr) (s t : State) : Prop where
  config : t.config = s.config
  lines : t.lines = s.lines
  tr : t.tr = s.tr
  draws : t.draws = s.draws
  host : t.host = s.host
  answers : t.answers = s.answers
  initDone : t.status.initDone = s.status.initDone
  noFaultEntry : t.status.fault = s.status.fault → t.errcode = s.errcode ∧ t.errinfo = s.errinfo
  faultEntry : t.status.fault ≠ s.status.fault →
    t.fs = s.fs ∧ t.dc = s.dc ∧ t.dm = s.dm ∧ t.seq = s.seq ∧ t.curop = s.curop ∧ t.status.busy = s.status.busy
  fs : DiffersWithin (flagsOfFS i) s.fs t.fs
  dc : DiffersWithin (flagsOfDC i) s.dc t.dc
  dm : DiffersWithin (flagsOfDM i) s.dm t.dm

theorem RequestFrame.refl (i : Instr) (s : State) : RequestFrame i s s where
  config := rfl
  lines := rfl
  tr := rfl
  draws := rfl
  host := rfl
  answers := rfl
  initDone := rfl
  noFaultEntry _ := ⟨rfl, rfl⟩
  faultEntry h := absurd rfl h
  fs := .refl _ _
  dc := .refl _ _
  dm := .refl _ _

theorem RequestFrame.raise (i : Instr) {s : State} (hf : s.status.fault = false) (error : ConfigError)
    (opcode : Byte) : RequestFrame i s (s.raise error opcode) :=
  { RequestFrame.refl i s with
    noFaultEntry := fun h => nomatch h.trans hf
    faultEntry := fun _ => ⟨rfl, rfl, rfl, rfl, rfl, rfl⟩ }

/-- Acceptance sets INITDONE for an INIT without events only, and INIT has events. -/
theorem RequestFrame.accept {i : Instr} {s updated : State} (h : UpdatesOwnFlags i s updated) {op : Opcode}
    {events : List BusEvent} (hinit : op = .init → events ≠ []) : RequestFrame i s (updated.accept op events) := by
  have hinitDone : (events.isEmpty && op.code == Opcode.init.code) = false := by
    cases op <;> cases events <;> simp_all [Opcode.code]
  obtain ⟨hrest, hfs, hdc, hdm⟩ := h
  rw [State.accept_eq, hinitDone, Bool.or_false]
  generalize updated.fs = fs, updated.dc = dc, updated.dm = dm at hrest hfs hdc hdm
  subst hrest
  exact { RequestFrame.refl i s with
    faultEntry := fun hfault => absurd rfl hfault
    fs := hfs
    dc := hdc
    dm := hdm }

theorem RequestFrame.of_request {i : Instr} {s t : State} {op : Opcode}
    {plan : BusWidth → Except ConfigError (State × List BusEvent)} (h : s.request op plan = .next t)
    (hp : ∀ w updated events, plan w = .ok (updated, events) →
      UpdatesOwnFlags i s updated ∧ (op = .init → events ≠ [])) : RequestFrame i s t := by
  rcases State.request_cases h with ⟨_, rfl⟩ | ⟨w, hr, ⟨error, _, rfl⟩ | ⟨updated, events, hok, rfl⟩⟩
  · exact .refl i _
  · exact .raise i hr.fault error _
  · obtain ⟨hu, hinit⟩ := hp w updated events hok
    exact .accept hu hinit

/-- The frame of a request that checks an operand, and updates and emits what `updated` and `events` say of a legal
one. -/
theorem RequestFrame.of_checked {i : Instr} {s t : State} {op : Opcode} {α : Type}
    {check : BusWidth → Except ConfigError α} {updated : BusWidth → α → State}
    {events : BusWidth → α → List BusEvent}
    (h : s.request op (fun w => (check w).map fun a => (updated w a, events w a)) = .next t)
    (hu : ∀ w a, UpdatesOwnFlags i s (updated w a)) (hinit : op = .init → ∀ w a, events w a ≠ []) :
    RequestFrame i s t := by
  refine .of_request h fun w u list hok => ?_
  rcases hc : check w with error | a <;> rw [hc] at hok <;> cases hok
  exact ⟨hu w a, fun hop => hinit hop w a⟩

/-- The frame of a request that checks nothing and updates no register. -/
theorem RequestFrame.of_unchecked {i : Instr} {s t : State} {op : Opcode} (events : BusWidth → List BusEvent)
    (h : s.request op (fun w => .ok (s, events w)) = .next t) (hop : op ≠ .init) : RequestFrame i s t :=
  .of_request h fun _ _ _ hok => by cases hok; exact ⟨.refl i s, fun h => absurd h hop⟩

/-- The frame of every request. -/
theorem exec_requestFrame {i : Instr} {bytes : List Byte} {s t : State} (hi : encode i = .request bytes)
    (h : exec i s = .next t) : RequestFrame i s t := by
  cases i with
  | init columns rows =>
    exact .of_checked h (fun _ v => .setFS (.init columns rows) s v) fun _ _ _ => initEvents_ne_nil _ _ _ _ _
  | clear => exact .of_unchecked (clearEvents s.config) h nofun
  | home => exact .of_unchecked (homeEvents s.config) h nofun
  | move column row => exact .of_checked h (fun _ _ => .refl _ s) nofun
  | print text => exact .of_unchecked (fun w => printEvents s.config w text) h nofun
  | cglyph idx p0 p1 p2 p3 p4 p5 p6 p7 => exact .of_checked h (fun _ _ => .refl _ s) nofun
  | sglyph idx => exact .of_checked h (fun _ _ => .refl _ s) nofun
  | setbw w => exact .of_checked h (fun _ v => .setFS (.setbw w) s v) nofun
  | setlines n => exact .of_checked h (fun _ v => .setFS (.setlines n) s v) nofun
  | setfont f => exact .of_checked h (fun _ v => .setFS (.setfont f) s v) nofun
  | setdisp b => exact .of_checked h (fun _ v => .setDC (.setdisp b) s v) nofun
  | setcurs b => exact .of_checked h (fun _ v => .setDC (.setcurs b) s v) nofun
  | setblink b => exact .of_checked h (fun _ v => .setDC (.setblink b) s v) nofun
  | setdir b => exact .of_checked h (fun _ v => .setDM (.setdir b) s v) nofun
  | setshift b => exact .of_checked h (fun _ v => .setDM (.setshift b) s v) nofun
  | wClearDisplay | wReturnHome | wDisplayMode | wDisplayControl | wFunctionSet | wCgramAddr | wDdramAddr | wData
  | wInitNibble3 | wInitNibble2 => cases hi

/-! ## Where the flags stand -/

theorem flagsOfFS_bit {i : Instr} {k : Nat} (hk : k < 8) (h : (flagsOfFS i).getLsbD k = true) :
    (k = 4 ∧ ∃ w, i = .setbw w) ∨ (k = 3 ∧ ((∃ n, i = .setlines n) ∨ ∃ c r, i = .init c r)) ∨
      (k = 2 ∧ ∃ f, i = .setfont f) := by
  have eightBit : ∀ k < 8, flagEightBit.getLsbD k = true → k = 4 := by decide
  have twoLine : ∀ k < 8, flagTwoLine.getLsbD k = true → k = 3 := by decide
  have tallFont : ∀ k < 8, flagTallFont.getLsbD k = true → k = 2 := by decide
  unfold flagsOfFS at h
  split at h
  · exact .inl ⟨eightBit k hk h, _, rfl⟩
  · exact .inr (.inl ⟨twoLine k hk h, .inl ⟨_, rfl⟩⟩)
  · exact .inr (.inl ⟨twoLine k hk h, .inr ⟨_, _, rfl⟩⟩)
  · exact .inr (.inr ⟨tallFont k hk h, _, rfl⟩)
  · simp at h

theorem flagsOfDC_bit {i : Instr} {k : Nat} (hk : k < 8) (h : (flagsOfDC i).getLsbD k = true) :
    (k = 2 ∧ ∃ b, i = .setdisp b) ∨ (k = 1 ∧ ∃ b, i = .setcurs b) ∨ (k = 0 ∧ ∃ b, i = .setblink b) := by
  have displayOn : ∀ k < 8, flagDisplayOn.getLsbD k = true → k = 2 := by decide
  have cursorOn : ∀ k < 8, flagCursorOn.getLsbD k = true → k = 1 := by decide
  have blinkOn : ∀ k < 8, flagBlinkOn.getLsbD k = true → k = 0 := by decide
  unfold flagsOfDC at h
  split at h
  · exact .inl ⟨displayOn k hk h, _, rfl⟩
  · exact .inr (.inl ⟨cursorOn k hk h, _, rfl⟩)
  · exact .inr (.inr ⟨blinkOn k hk h, _, rfl⟩)
  · simp at h

theorem flagsOfDM_bit {i : Instr} {k : Nat} (hk : k < 8) (h : (flagsOfDM i).getLsbD k = true) :
    (k = 1 ∧ ∃ b, i = .setdir b) ∨ (k = 0 ∧ ∃ b, i = .setshift b) := by
  have entryLeft : ∀ k < 8, flagEntryLeft.getLsbD k = true → k = 1 := by decide
  have entryShift : ∀ k < 8, flagEntryShift.getLsbD k = true → k = 0 := by decide
  unfold flagsOfDM at h
  split at h
  · exact .inl ⟨entryLeft k hk h, _, rfl⟩
  · exact .inr ⟨entryShift k hk h, _, rfl⟩
  · simp at h

/-- Settles O47: the frame of every request, and where the flags it may move stand. -/
theorem requestsLeaveTheRestAlone : Obligations.RequestsLeaveTheRestAlone := by
  unfold Obligations.RequestsLeaveTheRestAlone
  intro i bytes s t hi h
  have frame := exec_requestFrame hi h
  exact ⟨frame.config, frame.lines, frame.tr, frame.draws, frame.host, frame.answers, frame.initDone,
    frame.noFaultEntry, frame.faultEntry,
    fun k hk hne => flagsOfFS_bit hk (frame.fs k hk hne),
    fun k hk hne => flagsOfDC_bit hk (frame.dc k hk hne),
    fun k hk hne => flagsOfDM_bit hk (frame.dm k hk hne)⟩

end Sys2Proof.Machine
end

section
/-! PROOFS. What the bus carries: a transfer latches its value once, and a byte goes out as its transfers (20_memory.md
R55, R56). -/

namespace Sys2Proof.Machine

/-! ## The transcript of a list of events -/

theorem transcript_append (l : Lines) (xs ys : List BusEvent) :
    transcript l (xs ++ ys) = transcript l xs ++ transcript (l.applyAll xs) ys := by
  induction xs generalizing l with
  | nil => rfl
  | cons event xs ih =>
    simp only [List.cons_append, transcript, Lines.applyAll_cons, ih]
    split <;> rfl

/-- A drive of RS moves RS and latches nothing. -/
theorem transcript_driveRs (l : Lines) (rs : Bool) (events : List BusEvent) :
    transcript l (.drive .rs rs :: events) = transcript { l with rs := rs } events := by
  simp [transcript, Lines.falls]

/-! ## Driving the data lines -/

/-- The first `k` data lines are driven with the levels `bit`, D[0] first. -/
def driveLines (bit : Nat → Bool) (k : Nat) : List BusEvent :=
  (List.range k).map fun i => .drive (.d i) (bit i)

theorem dataDrives_eq {n : Nat} (v : BitVec n) : dataDrives v = driveLines v.getLsbD n := rfl

theorem driveLines_succ (bit : Nat → Bool) (k : Nat) :
    driveLines bit (k + 1) = driveLines bit k ++ [.drive (.d k) (bit k)] := by
  simp [driveLines, List.range_succ]

theorem transcript_driveLines (bit : Nat → Bool) (k : Nat) (l : Lines) : transcript l (driveLines bit k) = [] := by
  induction k with
  | zero => rfl
  | succ k ih => simp [driveLines_succ, transcript_append, ih, transcript, Lines.falls]

/-- Driving the first `k` data lines sets their levels and leaves the other lines. -/
theorem applyAll_driveLines (bit : Nat → Bool) {k : Nat} {l : Lines} (hk : k ≤ l.d.length) :
    l.applyAll (driveLines bit k) = { l with d := (List.range k).map bit ++ l.d.drop k } := by
  induction k with
  | zero => rfl
  | succ k ih =>
    have hset : (l.d.drop k).set 0 (bit k) = bit k :: l.d.drop (k + 1) := by
      rw [List.drop_eq_getElem_cons hk, List.set_cons_zero]
    rw [driveLines_succ, Lines.applyAll_append, ih (Nat.le_of_succ_le hk)]
    simp [List.range_succ, hset]

/-! ## Transfers -/

/-- From E low, the pulse latches the data lines once and leaves every line as it was (R182). -/
theorem transcript_enablePulse (c : Config) {l : Lines} (he : l.e = false) :
    transcript l (enablePulse c) = [(l.rs, l.d)] := by
  simp [enablePulse, transcript, Lines.falls, he]

theorem applyAll_enablePulse (c : Config) {l : Lines} (he : l.e = false) : l.applyAll (enablePulse c) = l := by
  simp [enablePulse, ← he]

/-- R55: after the drives of a transfer, line D[i] carries bit i. -/
theorem applyAll_dataDrives {n : Nat} (v : BitVec n) {l : Lines} (hd : l.d.length = n) :
    l.applyAll (dataDrives v) = { l with d := (List.range n).map v.getLsbD } := by
  rw [dataDrives_eq, applyAll_driveLines v.getLsbD hd.ge, List.drop_of_length_le hd.le, List.append_nil]

theorem applyAll_transfer (c : Config) {n : Nat} (v : BitVec n) {l : Lines} (hd : l.d.length = n) (he : l.e = false) :
    l.applyAll (transfer c v) = { l with d := (List.range n).map v.getLsbD } := by
  rw [transfer, Lines.applyAll_append, applyAll_dataDrives v hd]
  exact applyAll_enablePulse c he

theorem transcript_transfer (c : Config) {n : Nat} (v : BitVec n) {l : Lines} (hd : l.d.length = n)
    (he : l.e = false) : transcript l (transfer c v) = [(l.rs, (List.range n).map v.getLsbD)] := by
  rw [transfer, transcript_append, dataDrives_eq, transcript_driveLines, ← dataDrives_eq, applyAll_dataDrives v hd]
  exact transcript_enablePulse c he

/-- Two transfers in a row latch one value each, at the same RS level. -/
theorem transcript_transfer_pair (c : Config) {n : Nat} (v w : BitVec n) {l : Lines} (hd : l.d.length = n)
    (he : l.e = false) :
    transcript l (transfer c v ++ transfer c w) =
      [(l.rs, (List.range n).map v.getLsbD), (l.rs, (List.range n).map w.getLsbD)] := by
  have hsecond := transcript_transfer c w (l := { l with d := (List.range n).map v.getLsbD }) (by simp) he
  rw [transcript_append, transcript_transfer c v hd he, applyAll_transfer c v hd he, hsecond]
  rfl

/-- Settles O51: the drives latch nothing and set the data lines, and the pulse latches them once. -/
theorem transferLatchesItsValueOnce : Obligations.TransferLatchesItsValueOnce := by
  unfold Obligations.TransferLatchesItsValueOnce
  intro c n v l hd he
  exact ⟨transcript_transfer c v hd he, applyAll_transfer c v hd he⟩

/-! ## Bytes -/

theorem writeByte_four (c : Config) (rs : Bool) (b : Byte) :
    writeByte c .four rs b = .drive .rs rs :: (transfer c (highNibble b) ++ transfer c (lowNibble b)) := rfl

theorem writeByte_eight (c : Config) (rs : Bool) (b : Byte) :
    writeByte c .eight rs b = .drive .rs rs :: transfer c b := rfl

/-- The levels of D[0] to D[3] for the high nibble (R6). -/
theorem highNibble_levels (b : Byte) :
    (List.range 4).map (highNibble b).getLsbD = [b.getLsbD 4, b.getLsbD 5, b.getLsbD 6, b.getLsbD 7] := by
  simp [highNibble, List.range_succ]

/-- The levels of D[0] to D[3] for the low nibble (R6). -/
theorem lowNibble_levels (b : Byte) :
    (List.range 4).map (lowNibble b).getLsbD = [b.getLsbD 0, b.getLsbD 1, b.getLsbD 2, b.getLsbD 3] := by
  simp [lowNibble, List.range_succ]

/-- Settles O52: after the drive of RS, a byte is two transfers on four lines and one on eight. -/
theorem highNibbleGoesFirst : Obligations.HighNibbleGoesFirst := by
  unfold Obligations.HighNibbleGoesFirst
  intro c w rs b l hd he
  cases w with
  | four =>
    rw [writeByte_four, transcript_driveRs, transcript_transfer_pair c (n := 4) _ _ (l := { l with rs := rs }) hd he,
      highNibble_levels, lowNibble_levels]
  | eight =>
    rw [writeByte_eight, transcript_driveRs]
    exact transcript_transfer c b (l := { l with rs := rs }) hd he

end Sys2Proof.Machine
end

section
/-! PROOFS. Host accesses to the register map: what a read returns, and that a write beside REQ does nothing
(20_memory.md R51). -/

namespace Sys2Proof.Machine

/-- Every offset of a byte is in the register map (R51, R54). -/
theorem registerOffset_add (c : Config) (offset : Byte) :
    registerOffset c (c.regBase + offset.toNat) = some offset := by
  have hlt := offset.isLt
  simp [registerOffset, hlt]

theorem step_of_read {s : State} {offset : Byte} {rest : List HostAction}
    (hh : s.host = .read (s.config.regBase + offset.toNat) :: rest) :
    step s = .next { s with host := rest, answers := s.answers ++ [s.readRegister offset] } := by
  simp only [step, State.nextStep, hh, State.hostStep, registerOffset_add]
  rfl

theorem State.readRegister_of_toNat (s : State) {offset : Byte} {k : Nat} (h : offset.toNat = k) :
    s.readRegister offset = s.readRegister (BitVec.ofNat 8 k) := by
  rw [← h, BitVec.ofNat_toNat, BitVec.setWidth_eq]

/-- R51: REQ and the reserved offsets read 0x00. -/
theorem State.readRegister_of_no_register (s : State) {offset : Byte} (h : offset.toNat = 0 ∨ 8 ≤ offset.toNat) :
    s.readRegister offset = 0x00 := by
  have hne : ∀ k : Byte, 1 ≤ k.toNat → k.toNat ≤ 7 → offset ≠ k := by
    rintro k h1 h7 rfl
    omega
  simp [State.readRegister, hne]

/-- Settles O24: the offset is in the register map, and each of its registers reads what R51 says. -/
theorem hostReadReturnsTheRegister : Obligations.HostReadReturnsTheRegister := by
  unfold Obligations.HostReadReturnsTheRegister
  intro s offset rest hh
  rw [step_of_read hh]
  congr 4
  split
  case h_8 =>
    simp only [imp_false] at *
    exact s.readRegister_of_no_register (by omega)
  case h_1 h | h_2 h | h_3 h | h_4 h | h_5 h | h_6 h | h_7 h =>
    rw [State.readRegister_of_toNat s h]
    rfl

/-- Settles O25: the offset is in the register map, and it is not REQ's. -/
theorem hostWriteElsewhereHasNoEffect : Obligations.HostWriteElsewhereHasNoEffect := by
  unfold Obligations.HostWriteElsewhereHasNoEffect
  intro s offset b rest hne hh
  simp only [step, State.nextStep, hh, State.hostStep, registerOffset_add, if_neg hne]

end Sys2Proof.Machine
end

section
/-! PROOFS. What a step keeps of the pending request: its events are performed in order, and the shadows stand while
BUSY = 1 (10_state.md R30, R31; 20_memory.md R51, R62). -/

namespace Sys2Proof.Machine

/-! ## The trace and the pending events -/

/-- A meaning performs no event. -/
theorem exec_tr {i : Instr} {s t : State} (h : exec i s = .next t) : t.tr = s.tr := by
  rcases exec_cases h with ⟨_, rfl⟩ | ⟨_, _, _, _, rfl⟩ | ⟨_, _, _, _, _, _, _, rfl, _, _⟩ | ⟨_, _, _, _, _, _, _, rfl⟩
  · rfl
  · rfl
  · exact State.accept_tr _ _ _
  · rfl

theorem State.writeReq_tr {s t : State} {b : Byte} (h : s.writeReq b = .next t) : t.tr = s.tr := by
  rcases State.writeReq_cases h with ⟨_, rfl⟩ | ⟨_, _, ⟨_, rfl⟩ | ⟨op, _, rfl⟩ | ⟨i, rest, _, he⟩⟩
  · rfl
  · rfl
  · rfl
  · exact (exec_tr he).trans rfl

/-- A block that takes a REQ write has nothing pending: it is idle or faulted (R32). -/
theorem State.Inv.seq_of_writable {s : State} (h : s.Inv) (hw : s.holdsWrite = false) : s.seq = [] := by
  cases hf : s.status.fault with
  | true => exact (h.quiet hf).1
  | false => exact h.seq_of_idle (by simpa [State.holdsWrite, hf] using hw)

/-- From `s` to `t` at most one event is performed, the events performed and pending are the same ones in the same
order, and events join them at the end, if nothing was pending (R62). -/
def State.KeepsOrder (s t : State) : Prop :=
  ∃ (performed : List Performed) (added : List BusEvent),
    t.tr = s.tr ++ performed ∧ performed.length ≤ 1 ∧
    t.tr.map Performed.event ++ t.seq = s.tr.map Performed.event ++ s.seq ++ added ∧
    (added = [] ∨ s.seq = [])

theorem State.KeepsOrder.of_same {s t : State} (htr : t.tr = s.tr) (hseq : t.seq = s.seq) : s.KeepsOrder t :=
  ⟨[], [], by simp [htr], by simp, by simp [htr, hseq], .inl rfl⟩

/-- With nothing pending, what joins is what is pending then. -/
theorem State.KeepsOrder.of_nothing_pending {s t : State} (htr : t.tr = s.tr) (hs : s.seq = []) : s.KeepsOrder t :=
  ⟨[], t.seq, by simp [htr], by simp, by simp [htr, hs], .inr hs⟩

/-- A block step moves the head event from the pending ones to the performed ones. -/
theorem State.KeepsOrder.blockStep (s : State) : s.KeepsOrder s.blockStep := by
  cases hs : s.seq with
  | nil => exact .of_same (by simp [State.blockStep, hs]) (by simp [State.blockStep, hs])
  | cons event rest =>
    rw [State.blockStep_of_pending hs]
    exact ⟨[{ event := event, draw := s.draws }], [], rfl, le_rfl, by simp [hs], .inl rfl⟩

/-- Settles O15: a step is a block step, a change of the host's fields, or a REQ write, which performs nothing and is
taken with nothing pending only. -/
theorem eventsArePerformedInOrder : Obligations.EventsArePerformedInOrder := by
  unfold Obligations.EventsArePerformedInOrder
  intro s t hinv hstep hreset
  show s.KeepsOrder t
  rcases step_cases hstep with ⟨_, rfl⟩ | ⟨rest, _, rfl⟩ | ⟨_, _, rest, _, _, rfl⟩ | ⟨_, b, rest, _, _, _, rfl⟩ |
    ⟨_, b, rest, _, _, hw, hreq⟩ | ⟨_, b, _, rest, _, _, _, rfl⟩ | ⟨rest, hr, _⟩
  · exact .blockStep s
  · exact .blockStep { s with host := rest }
  · exact .of_same rfl rfl
  · exact .blockStep s
  · exact .of_nothing_pending ((State.writeReq_tr hreq).trans rfl) (hinv.seq_of_writable hw)
  · exact .of_same rfl rfl
  · exact absurd hr (hreset rest)

/-! ## The shadows -/

/-- A busy block that takes a REQ write is faulted (R32). -/
theorem State.fault_of_busy_writable {s : State} (hb : s.status.busy = true) (hw : s.holdsWrite = false) :
    s.status.fault = true := by
  simpa [State.holdsWrite, hb] using hw

/-- Settles O17: no block step moves a shadow, and a busy block holds a REQ write, or discards it when it is faulted. -/
theorem shadowsHoldWhileBusy : Obligations.ShadowsHoldWhileBusy := by
  unfold Obligations.ShadowsHoldWhileBusy
  intro s t hb hreset hstep
  rcases step_cases hstep with ⟨_, rfl⟩ | ⟨rest, _, rfl⟩ | ⟨_, _, rest, _, _, rfl⟩ | ⟨_, b, rest, _, _, _, rfl⟩ |
    ⟨_, b, rest, _, _, hw, hreq⟩ | ⟨_, b, _, rest, _, _, _, rfl⟩ | ⟨rest, hr, _⟩
  · simp
  · simp
  · exact ⟨rfl, rfl, rfl⟩
  · simp
  · have hf := State.fault_of_busy_writable hb hw
    rw [State.writeReq_of_fault (s := { s with host := rest }) hf b] at hreq
    cases hreq
    exact ⟨rfl, rfl, rfl⟩
  · exact ⟨rfl, rfl, rfl⟩
  · exact absurd hr (hreset rest)

end Sys2Proof.Machine
end

section
/-! PROOFS. The request stream: what a format makes of the operand bytes, and that written requests are read back
(30_encoding.md R70 to R72). -/

namespace Sys2Proof

/-! ## Reading operands -/

/-- A format reads an instruction from the front of the operand bytes: `mine` are the operands, as many as R71 says,
and `rest` is the stream behind them. -/
structure Opcode.Reads (o : Opcode) (operands : List Byte) (i : Instr) (mine rest : List Byte) : Prop where
  split : operands = mine ++ rest
  length : mine.length + 1 = o.length (operands.headD 0)
  wellFormed : i.wellFormed = true
  encode : encode i = .request (o.code :: mine)
  parse : o.parse operands = .complete i rest

/-- Everything a format can do: it waits for bytes below the length of R71, and reads an instruction from there on. -/
theorem Opcode.parse_cases (o : Opcode) (operands : List Byte) :
    (operands.length + 1 < o.length (operands.headD 0) ∧ o.parse operands = .incomplete) ∨
    ∃ i mine rest, o.Reads operands i mine rest := by
  cases o with
  | clear | home => exact .inr ⟨_, [], operands, rfl, rfl, rfl, rfl, rfl⟩
  | sglyph | setbw | setlines | setfont | setdisp | setcurs | setblink | setdir | setshift =>
    match operands with
    | [] => exact .inl ⟨Nat.lt_succ_self 1, rfl⟩
    | a :: rest => exact .inr ⟨_, [a], rest, rfl, rfl, rfl, rfl, rfl⟩
  | init | move =>
    match operands with
    | [] | [_] => exact .inl ⟨by simp [Opcode.length], rfl⟩
    | a :: b :: rest => exact .inr ⟨_, [a, b], rest, rfl, rfl, rfl, rfl, rfl⟩
  | cglyph =>
    match operands with
    | [] | [_] | [_, _] | [_, _, _] | [_, _, _, _] | [_, _, _, _, _] | [_, _, _, _, _, _] | [_, _, _, _, _, _, _]
    | [_, _, _, _, _, _, _, _] => exact .inl ⟨by simp [Opcode.length], rfl⟩
    | idx :: p0 :: p1 :: p2 :: p3 :: p4 :: p5 :: p6 :: p7 :: rest =>
      exact .inr ⟨_, [idx, p0, p1, p2, p3, p4, p5, p6, p7], rest, rfl, rfl, rfl, rfl, rfl⟩
  | print =>
    match operands with
    | [] => exact .inl ⟨by simp [Opcode.length], rfl⟩
    | len :: tail =>
      by_cases h : len.toNat ≤ tail.length
      · have htake : (tail.take len.toNat).length = len.toNat := List.length_take_of_le h
        refine .inr ⟨.print (tail.take len.toNat), len :: tail.take len.toNat, tail.drop len.toNat,
          ?split, ?length, ?wellFormed, ?encode, ?parse⟩
        case split => simp
        case length => simp only [List.length_cons, htake, List.headD_cons, Opcode.length]; omega
        case wellFormed => simpa [Instr.wellFormed] using .inl (Nat.le_of_lt_succ len.isLt)
        case encode => simp [Sys2Proof.encode, htake]
        case parse => simp [Opcode.parse, h]
      · exact .inl ⟨by simp [Opcode.length]; omega, by simp [Opcode.parse, h]⟩

/-- A PRINT of at most 255 bytes is read back, its length being one byte (R70). -/
theorem Opcode.parse_print {text : List Byte} (h : text.length ≤ 255) (rest : List Byte) :
    Opcode.print.parse (BitVec.ofNat 8 text.length :: text ++ rest) = .complete (.print text) rest := by
  have hlen : (BitVec.ofNat 8 text.length).toNat = text.length := Nat.mod_eq_of_lt (Nat.lt_succ_of_le h)
  simp [Opcode.parse, hlen]

/-- Settles O1: every request but PRINT has a fixed number of operand bytes, and PRINT's length byte is read back. -/
theorem writtenRequestIsReadBack : Obligations.WrittenRequestIsReadBack := by
  unfold Obligations.WrittenRequestIsReadBack
  intro i bytes rest hwf hi
  cases i with
  | print text =>
    cases hi
    exact (decodeRequest_code .print _).trans (Opcode.parse_print (by simpa [Instr.wellFormed] using hwf) rest)
  | init | clear | home | move | cglyph | sglyph | setbw | setlines | setfont | setdisp | setcurs | setblink | setdir
  | setshift => cases hi; rfl
  | wClearDisplay | wReturnHome | wDisplayMode | wDisplayControl | wFunctionSet | wCgramAddr | wDdramAddr | wData
  | wInitNibble3 | wInitNibble2 => cases hi

/-- What is read from the request stream was written there (R70, R72). -/
theorem encode_of_decodeRequest {bytes rest : List Byte} {i : Instr} (h : decodeRequest bytes = .complete i rest) :
    i.wellFormed = true ∧ ∃ mine, encode i = .request mine ∧ bytes = mine ++ rest := by
  rcases bytes with _ | ⟨op, operands⟩
  · cases h
  · rcases ho : Opcode.ofByte op with _ | o
    · rw [decodeRequest_of_reserved ho] at h; cases h
    · obtain rfl := Opcode.code_of_ofByte ho
      rw [decodeRequest_code] at h
      rcases o.parse_cases operands with ⟨_, hshort⟩ | ⟨j, mine, tail, hread⟩
      · cases hshort.symm.trans h
      · cases hread.parse.symm.trans h
        exact ⟨hread.wellFormed, o.code :: mine, hread.encode, congrArg (o.code :: ·) hread.split⟩

/-! ## The length of a request -/

theorem Opcode.length_le (o : Opcode) (b1 : Byte) : o.length b1 ≤ 257 := by
  cases o with
  | print => exact Nat.add_le_add_left (Nat.le_of_lt_succ b1.isLt) 2
  | init | clear | home | move | cglyph | sglyph | setbw | setlines | setfont | setdisp | setcurs | setblink | setdir
  | setshift => simp [Opcode.length]

/-- Settles O4: a format waits below the length of R71 and reads from there on, and what it leaves is what is beyond. -/
theorem requestIsCompleteAtItsLength : Obligations.RequestIsCompleteAtItsLength := by
  unfold Obligations.RequestIsCompleteAtItsLength
  intro op operands hop b1 len
  obtain ⟨o, ho⟩ := Option.ne_none_iff_exists'.mp hop
  obtain rfl := Opcode.code_of_ofByte ho
  have hlen : len = o.length b1 := by cases o <;> rfl
  clear_value len
  subst hlen
  rw [decodeRequest_code, List.length_cons]
  refine and_assoc.mp ⟨?_, o.length_le b1⟩
  rcases o.parse_cases operands with ⟨hlt, hparse⟩ | ⟨i, mine, rest, hread⟩
  · rw [hparse]
    exact ⟨⟨nofun, fun heq => absurd heq hlt.ne⟩, iff_of_true rfl hlt⟩
  · have hsum : operands.length = mine.length + rest.length := by rw [hread.split, List.length_append]
    have hmine : mine.length + 1 = o.length b1 := hread.length
    rw [hread.parse, ← hmine, hsum]
    refine ⟨⟨?_, fun heq => ⟨i, ?_⟩⟩, iff_of_false nofun (by omega)⟩
    · rintro ⟨j, hj⟩
      cases hj
      rfl
    · rw [List.eq_nil_of_length_eq_zero (l := rest) (by omega)]

end Sys2Proof
end

section
/-! PROOFS. The two encodings: the rows of bus traffic by their bit patterns, and that decoding and encoding undo each
other (30_encoding.md R70 to R79). -/

namespace Sys2Proof

/-! ## The fields of a command byte (R76) -/

theorem displayModeByte_fields : ∀ b : Byte, b &&& 0xFC = 0x04 →
    displayModeByte (b.getLsbD 1) (b.getLsbD 0) = b := by decide +kernel

theorem displayControlByte_fields : ∀ b : Byte, b &&& 0xF8 = 0x08 →
    displayControlByte (b.getLsbD 2) (b.getLsbD 1) (b.getLsbD 0) = b := by decide +kernel

theorem functionSetByte_fields : ∀ b : Byte, b &&& 0xE3 = 0x20 →
    functionSetByte (b.getLsbD 4) (b.getLsbD 3) (b.getLsbD 2) = b := by decide +kernel

theorem cgramAddressByte_fields : ∀ b : Byte, b &&& 0xC7 = 0x40 → cgramAddressByte (b.extractLsb' 3 3) = b := by
  decide +kernel

theorem cursorAddressByte_fields : ∀ b : Byte, b &&& 0x80 = 0x80 →
    cursorAddressByte ((b.extractLsb' 0 6).zeroExtend 8) ((BitVec.ofBool (b.getLsbD 6)).zeroExtend 8) = b := by
  decide +kernel

/-! ## Rows and words -/

/-- A command byte is read as the row that encodes to it (R76). -/
theorem encode_of_decodeWireCommand {b : Byte} {i : Instr} (h : decodeWireCommand b = some i) :
    encode i = .wireByte false b := by
  unfold decodeWireCommand at h
  split_ifs at h with hclear hhome hdm hdc hfs hcgram hddram <;> cases h
  · rw [hclear]; rfl
  · rw [hhome]; rfl
  · exact congrArg (Encoding.wireByte false) (displayModeByte_fields b hdm)
  · exact congrArg (Encoding.wireByte false) (displayControlByte_fields b hdc)
  · exact congrArg (Encoding.wireByte false) (functionSetByte_fields b hfs)
  · exact congrArg (Encoding.wireByte false) (cgramAddressByte_fields b hcgram)
  · exact congrArg (Encoding.wireByte false) (cursorAddressByte_fields b hddram)

theorem decodeWireCommand_cgramAddressByte :
    ∀ i : BitVec 3, decodeWireCommand (cgramAddressByte i) = some (.wCgramAddr i) := by decide

theorem decodeWireCommand_cursorAddressByte : ∀ (row : Bool) (column : BitVec 6),
    decodeWireCommand (cursorAddressByte (column.zeroExtend 8) ((BitVec.ofBool row).zeroExtend 8)) =
      some (.wDdramAddr row column) := by decide +kernel

/-- The rows of command bytes are read back (R76). -/
theorem decodeWireCommand_of_encode {b : Byte} {i : Instr} (h : encode i = .wireByte false b) :
    decodeWireCommand b = some i := by
  cases i with
  | wClearDisplay | wReturnHome => cases h; rfl
  | wDisplayMode entryLeft entryShift => cases h; cases entryLeft <;> cases entryShift <;> rfl
  | wDisplayControl displayOn cursorOn blinkOn =>
    cases h; cases displayOn <;> cases cursorOn <;> cases blinkOn <;> rfl
  | wFunctionSet eightBit twoLine tallFont =>
    cases h; cases eightBit <;> cases twoLine <;> cases tallFont <;> rfl
  | wCgramAddr index => cases h; exact decodeWireCommand_cgramAddressByte index
  | wDdramAddr row column => cases h; exact decodeWireCommand_cursorAddressByte row column
  | init | clear | home | move | print | cglyph | sglyph | setbw | setlines | setfont | setdisp | setcurs | setblink
  | setdir | setshift | wData | wInitNibble3 | wInitNibble2 => cases h

theorem decodeWireCommand_eq_some_iff {b : Byte} {i : Instr} :
    decodeWireCommand b = some i ↔ encode i = .wireByte false b :=
  ⟨encode_of_decodeWireCommand, decodeWireCommand_of_encode⟩

/-- A lone nibble is read as the row that encodes to it (R78). -/
theorem encode_of_decodeWireNibble {rs : Bool} {v : Nibble} {i : Instr} (h : decodeWireNibble rs v = some i) :
    encode i = .wireNibble rs v := by
  unfold decodeWireNibble at h
  split_ifs at h with hrs h3 h2 <;> cases h
  · rw [h3, Bool.eq_false_of_not_eq_true hrs]; rfl
  · rw [h2, Bool.eq_false_of_not_eq_true hrs]; rfl

/-! ## Decoding and encoding -/

/-- Only PRINT can be too long to be written (R70), and it is a request. -/
theorem Instr.wellFormed_of_traffic {i : Instr} (h : requestBytes i = none) : i.wellFormed = true := by
  cases i with
  | print text => cases h
  | _ => rfl

theorem decode_request_of_complete {bytes : List Byte} {i : Instr} (h : decodeRequest bytes = .complete i []) :
    decode (.request bytes) = .ok i := by
  simp [decode, h]

theorem decode_wireCommand_eq_ok_iff {b : Byte} {i : Instr} :
    decode (.wireByte false b) = .ok i ↔ decodeWireCommand b = some i := by
  cases h : decodeWireCommand b <;> simp [decode, h]

theorem decode_wireNibble_eq_ok_iff {rs : Bool} {v : Nibble} {i : Instr} :
    decode (.wireNibble rs v) = .ok i ↔ decodeWireNibble rs v = some i := by
  cases h : decodeWireNibble rs v <;> simp [decode, h]

/-- Settles O2: a request is read back from the stream, a row of bus traffic from its byte or nibble. -/
theorem decodeOfEncodeIsIdentity : Obligations.DecodeOfEncodeIsIdentity := by
  unfold Obligations.DecodeOfEncodeIsIdentity
  intro i hwf
  cases hi : encode i with
  | request bytes =>
    have hread := writtenRequestIsReadBack i bytes [] hwf hi
    rw [List.append_nil] at hread
    exact decode_request_of_complete hread
  | wireByte rs b =>
    cases rs with
    | false => exact decode_wireCommand_eq_ok_iff.mpr (decodeWireCommand_of_encode hi)
    | true => cases i <;> cases hi; rfl
  | wireNibble rs v => cases i <;> cases hi <;> rfl

/-- Settles O3: words of the request stream were written there, and a byte or nibble of bus traffic has the bits of the
row it is read as. -/
theorem encodeOfDecodeIsIdentity : Obligations.EncodeOfDecodeIsIdentity := by
  unfold Obligations.EncodeOfDecodeIsIdentity
  intro words i h
  cases words with
  | request bytes =>
    simp only [decode] at h
    split at h <;> cases h
    next hread =>
    obtain ⟨hwf, mine, hi, hbytes⟩ := encode_of_decodeRequest hread
    exact ⟨hwf, by rw [hi, hbytes, List.append_nil]⟩
  | wireByte rs b =>
    have hi : encode i = .wireByte rs b := by
      cases rs with
      | false => exact encode_of_decodeWireCommand (decode_wireCommand_eq_ok_iff.mp h)
      | true => cases h; rfl
    exact ⟨Instr.wellFormed_of_traffic (by rw [requestBytes, hi]), hi⟩
  | wireNibble rs v =>
    have hi : encode i = .wireNibble rs v := encode_of_decodeWireNibble (decode_wireNibble_eq_ok_iff.mp h)
    exact ⟨Instr.wellFormed_of_traffic (by rw [requestBytes, hi]), hi⟩

/-- Settles O5: the ten words are the encodings of the ten instructions. -/
theorem specWordsAreDecoded : Obligations.SpecWordsAreDecoded := by
  have h := decodeOfEncodeIsIdentity
  exact ⟨h (.init 16 2) rfl, h (.move 5 1) rfl, h (.print [0x48, 0x69]) rfl, h (.setfont 0x0B) rfl,
    h (.wDisplayMode false true) rfl, h (.wFunctionSet false true false) rfl, h (.wCgramAddr 3) rfl,
    h (.wDdramAddr true 5) rfl, h (.wData 0x48) rfl, h .wInitNibble2 rfl⟩

/-- R79: the command bytes without a row, of all 256. -/
theorem decodeWireCommand_eq_none_iff : ∀ b : Byte, decodeWireCommand b = none ↔
    (b = 0x00 ∨ b = 0x03 ∨ (0x10 ≤ b ∧ b ≤ 0x1F) ∨
      (0x20 ≤ b ∧ b ≤ 0x3F ∧ (b.getLsbD 0 ∨ b.getLsbD 1)) ∨
      (0x40 ≤ b ∧ b ≤ 0x7F ∧ ∀ i : BitVec 3, b ≠ 0b01#2 ++ i ++ 0b000#3)) := by decide +kernel

/-- Settles O6: a byte is a row's exactly if it is decoded, and R79 lists the bytes that are not. -/
theorem commandRowsAreTheEmittedBytes : Obligations.CommandRowsAreTheEmittedBytes := by
  unfold Obligations.CommandRowsAreTheEmittedBytes
  intro b
  rw [← decodeWireCommand_eq_none_iff, ← ne_eq, Option.ne_none_iff_exists']
  exact exists_congr fun i => decodeWireCommand_eq_some_iff.symm

end Sys2Proof
end

section
/-! PROOFS. What requests put on the bus: rows of the opcode table, waits, and INIT's one drive of RS (30_encoding.md
R79). -/

namespace Sys2Proof.Machine

/-! ## Event lists made of table items -/

/-- A list of events is made of bus items that the opcode table allows on a bus of width `w`. -/
def MadeOfTableItems (c : Config) (w : BusWidth) (events : List BusEvent) : Prop :=
  ∃ items : List BusItem, events = items.flatMap (BusItem.events c w) ∧ ∀ item ∈ items, item.inTable w = true

theorem MadeOfTableItems.nil (c : Config) (w : BusWidth) : MadeOfTableItems c w [] := ⟨[], rfl, nofun⟩

theorem MadeOfTableItems.item (c : Config) {w : BusWidth} (item : BusItem) (h : item.inTable w = true) :
    MadeOfTableItems c w (item.events c w) :=
  ⟨[item], by simp, by simpa using h⟩

theorem MadeOfTableItems.append {c : Config} {w : BusWidth} {xs ys : List BusEvent} :
    MadeOfTableItems c w xs → MadeOfTableItems c w ys → MadeOfTableItems c w (xs ++ ys)
  | ⟨is, hi, hit⟩, ⟨js, hj, hjt⟩ =>
    ⟨is ++ js, by simp [hi, hj], fun item h => (List.mem_append.mp h).elim (hit item) (hjt item)⟩

theorem MadeOfTableItems.command (c : Config) {w : BusWidth} {b : Byte} (h : (BusItem.command b).inTable w = true) :
    MadeOfTableItems c w (writeCommand c w b) := .item c (.command b) h

theorem MadeOfTableItems.data (c : Config) (w : BusWidth) (b : Byte) : MadeOfTableItems c w (writeData c w b) :=
  .item c (.data b) rfl

theorem MadeOfTableItems.gap (c : Config) (w : BusWidth) (t : Nat) : MadeOfTableItems c w [.wait t] :=
  .item c (.gap t) rfl

theorem MadeOfTableItems.text (c : Config) (w : BusWidth) (bytes : List Byte) :
    MadeOfTableItems c w (bytes.flatMap (writeData c w)) :=
  ⟨bytes.map .data, by rw [List.flatMap_map]; rfl, by simp [BusItem.inTable]⟩

/-! ## The command bytes of the requests -/

/-- The shape of R101 is that of a FunctionSet row with its 8-bit-bus flag equal to (N = 8). -/
theorem inTable_fs {w : BusWidth} : ∀ {fs : Byte}, fs &&& 0xF3 = functionSetBase w →
    (BusItem.command fs).inTable w = true := by
  cases w <;> decide +kernel

theorem inTable_dc (w : BusWidth) : ∀ {dc : Byte}, dc &&& 0xF8 = 0x08 → (BusItem.command dc).inTable w = true := by
  cases w <;> decide +kernel

theorem inTable_dm (w : BusWidth) : ∀ {dm : Byte}, dm &&& 0xFC = 0x04 → (BusItem.command dm).inTable w = true := by
  cases w <;> decide +kernel

/-- Every byte from 0x80 up is a DDRAM address (R76). -/
theorem inTable_ddramAddress (w : BusWidth) : ∀ {b : Byte}, b &&& 0x80 = 0x80 →
    (BusItem.command b).inTable w = true := by
  cases w <;> decide +kernel

/-- The cursor address of a legal position is from 0x80 up (R110). -/
theorem cursorAddress_high {column row address : Byte} (h : cursorAddress column row = .ok address) :
    address &&& 0x80 = 0x80 := by
  have high : ∀ column ≤ (0x3F : Byte), cursorAddressByte column 0 &&& 0x80 = 0x80 ∧
      cursorAddressByte column 1 &&& 0x80 = 0x80 := by decide +kernel
  unfold cursorAddress at h
  split_ifs at h with hrow hcolumn
  cases h
  obtain ⟨first, second⟩ := high column hcolumn
  rcases hrow with rfl | rfl
  · exact first
  · exact second

/-- The default `CGRAM_CMD` has a row for every index (R76, D27). -/
theorem inTable_cgramCmd (w : BusWidth) : ∀ g : BitVec 3,
    (BusItem.command (0b01#2 ++ g ++ 0b000#3)).inTable w = true := by
  cases w <;> decide

/-- INIT sends its shadows, between nibbles and waits (R132, R133). -/
theorem initEvents_madeOfTableItems (c : Config) {w : BusWidth} {fs dc dm : Byte}
    (hfs : fs &&& 0xF3 = functionSetBase w) (hdc : dc &&& 0xF8 = 0x08) (hdm : dm &&& 0xFC = 0x04) :
    MadeOfTableItems c w (initEvents c w fs dc dm) := by
  have sendFs : MadeOfTableItems c w (writeCommand c w fs) := .command c (inTable_fs hfs)
  have sendDc : MadeOfTableItems c w (writeCommand c w dc) := .command c (inTable_dc w hdc)
  have sendDm : MadeOfTableItems c w (writeCommand c w dm) := .command c (inTable_dm w hdm)
  have gap := MadeOfTableItems.gap c w
  cases w
  case four =>
    have rsLow : MadeOfTableItems c .four [.drive .rs false] := .item c .rsLow rfl
    have three : MadeOfTableItems c .four (transfer c (0x3 : Nibble)) := .item c (.nibble 0x3) rfl
    have two : MadeOfTableItems c .four (transfer c (0x2 : Nibble)) := .item c (.nibble 0x2) rfl
    exact ((((((rsLow.append (three.append (gap _))).append (three.append (gap _))).append
      (three.append (gap _))).append two).append sendFs).append sendDc).append sendDm
  case eight =>
    exact (((((sendFs.append (gap _)).append (sendFs.append (gap _))).append sendFs).append sendFs).append
      sendDc).append sendDm

/-! ## Requests -/

/-- What a request leaves pending on an idle block, if what it emits when it is accepted is made of table items. -/
theorem MadeOfTableItems.of_request {s t : State} {w : BusWidth} {op : Opcode}
    {plan : BusWidth → Except ConfigError (State × List BusEvent)} (hidle : s.seq = []) (hr : s.Ready w)
    (h : s.request op plan = .next t)
    (hp : ∀ updated events, plan w = .ok (updated, events) →
      updated.seq = s.seq ∧ MadeOfTableItems s.config w events) : MadeOfTableItems s.config w t.seq := by
  rw [State.request_of_ready hr] at h
  rcases hplan : plan w with error | ⟨updated, events⟩ <;> rw [hplan] at h <;> cases h
  case error =>
    rw [State.raise_seq, hidle]
    exact .nil _ _
  case ok =>
    obtain ⟨hseq, hevents⟩ := hp updated events hplan
    rw [State.accept_seq, hseq, hidle]
    split
    · exact .nil _ _
    · exact hevents

/-- The same for a request that checks an operand, and updates and emits what `updated` and `events` say of a legal
one. -/
theorem MadeOfTableItems.of_checked {s t : State} {w : BusWidth} {op : Opcode} {α : Type}
    {check : BusWidth → Except ConfigError α} {updated : BusWidth → α → State}
    {events : BusWidth → α → List BusEvent} (hidle : s.seq = []) (hr : s.Ready w)
    (h : s.request op (fun w => (check w).map fun a => (updated w a, events w a)) = .next t)
    (hseq : ∀ a, (updated w a).seq = s.seq)
    (he : ∀ a, check w = .ok a → MadeOfTableItems s.config w (events w a)) : MadeOfTableItems s.config w t.seq := by
  refine .of_request hidle hr h fun u list hok => ?_
  rcases hc : check w with error | a <;> rw [hc] at hok <;> cases hok
  exact ⟨hseq a, he a hc⟩

/-- The same for a request that checks nothing. -/
theorem MadeOfTableItems.of_unchecked {s t : State} {w : BusWidth} {op : Opcode} {events : BusWidth → List BusEvent}
    (hidle : s.seq = []) (hr : s.Ready w) (h : s.request op (fun w => .ok (s, events w)) = .next t)
    (he : MadeOfTableItems s.config w (events w)) : MadeOfTableItems s.config w t.seq :=
  .of_request hidle hr h fun _ _ hok => by cases hok; exact ⟨rfl, he⟩

/-- Settles O7: the command bytes of a request are the shadows, whose shape the invariant gives, the two fixed ones, a
legal cursor address, or a byte of the default `CGRAM_CMD`. -/
theorem requestsEmitTableTrafficOnly : Obligations.RequestsEmitTableTrafficOnly := by
  unfold Obligations.RequestsEmitTableTrafficOnly
  intro s t w i bytes hinv hr hcgram hi h
  have hidle : s.seq = [] := hinv.seq_of_idle hr.busy
  obtain ⟨hfs, hdc, hdm⟩ := hinv.shadows w hr.width
  have text := MadeOfTableItems.text s.config w
  have nothing := MadeOfTableItems.nil s.config w
  have gap := MadeOfTableItems.gap s.config w
  show MadeOfTableItems s.config w t.seq
  cases i with
  | init columns rows =>
    exact .of_checked hidle hr h (fun _ => rfl) fun v _ =>
      initEvents_madeOfTableItems s.config (setFlag_and v (by decide) hfs) hdc hdm
  | clear => exact .of_unchecked hidle hr h ((MadeOfTableItems.command _ (by cases w <;> rfl)).append (gap _))
  | home => exact .of_unchecked hidle hr h ((MadeOfTableItems.command _ (by cases w <;> rfl)).append (gap _))
  | move column row =>
    exact .of_checked hidle hr h (fun _ => rfl) fun _ hok => .command _ (inTable_ddramAddress w (cursorAddress_high hok))
  | print bytes => exact .of_unchecked hidle hr h (text bytes)
  | cglyph idx p0 p1 p2 p3 p4 p5 p6 p7 =>
    refine .of_checked hidle hr h (fun _ => rfl) fun g _ => (MadeOfTableItems.command _ ?_).append (text _)
    rw [show s.config.cgramCmd[g] = _ from hcgram (.ofFin g)]
    exact inTable_cgramCmd w _
  | sglyph idx => exact .of_checked hidle hr h (fun _ => rfl) fun _ _ => .data _ _ _
  | setbw | setlines | setfont | setdisp | setcurs | setblink | setdir | setshift =>
    exact .of_checked hidle hr h (fun _ => rfl) fun _ _ => nothing
  | wClearDisplay | wReturnHome | wDisplayMode | wDisplayControl | wFunctionSet | wCgramAddr | wDdramAddr | wData
  | wInitNibble3 | wInitNibble2 => cases hi

end Sys2Proof.Machine
end

section
/-! PROOFS. A long PRINT is cut into requests with the same bus events (30_encoding.md R81). -/

namespace Sys2Proof.Machine

/-- A text cut into the texts of encodable PRINTs, all but the last of the greatest length. -/
structure SplitsText (text : List Byte) (parts : List (List Byte)) : Prop where
  nonempty : parts ≠ []
  short : ∀ part ∈ parts, part.length ≤ 255
  full : ∀ part ∈ parts.dropLast, part.length = 255
  flatten : parts.flatten = text

theorem SplitsText.single {text : List Byte} (h : text.length ≤ 255) : SplitsText text [text] where
  nonempty := List.cons_ne_nil _ _
  short := by simpa using h
  full := by simp
  flatten := by simp

/-- A full part goes before the parts of the rest. -/
theorem SplitsText.cons {text : List Byte} {parts : List (List Byte)} (hlong : 255 < text.length)
    (h : SplitsText (text.drop 255) parts) : SplitsText text (text.take 255 :: parts) where
  nonempty := List.cons_ne_nil _ _
  short := by simpa using h.short
  full := by
    have htake : (text.take 255).length = 255 := List.length_take_of_le hlong.le
    rw [List.dropLast_cons_of_ne_nil h.nonempty]
    exact List.forall_mem_cons.mpr ⟨htake, h.full⟩
  flatten := by rw [List.flatten_cons, h.flatten, List.take_append_drop]

/-- With fuel for every byte the cut reaches the end of the text. -/
theorem printRequestsFrom_splitsText {fuel : Nat} {text : List Byte} (h : text.length ≤ fuel) :
    ∃ parts, printRequestsFrom fuel text = parts.map Instr.print ∧ SplitsText text parts := by
  induction fuel generalizing text with
  | zero => exact ⟨[text], rfl, .single (by omega)⟩
  | succ fuel ih =>
    unfold printRequestsFrom
    split
    next hshort => exact ⟨[text], rfl, .single hshort⟩
    next hlong =>
      obtain ⟨parts, hparts, hsplit⟩ := ih (text := text.drop 255) (by rw [List.length_drop]; omega)
      exact ⟨text.take 255 :: parts, by rw [hparts, List.map_cons], hsplit.cons (by omega)⟩

/-- The events of a text are those of its parts in order (R153). -/
theorem printEvents_flatten (c : Config) (w : BusWidth) (parts : List (List Byte)) :
    printEvents c w parts.flatten = (parts.map (printEvents c w)).flatten := by
  induction parts with
  | nil => rfl
  | cons part parts ih => simp only [List.flatten_cons, List.map_cons, ← ih, printEvents, List.flatMap_append]

/-- Settles O58, by induction on the assembler's fuel; a byte's events do not depend on the PRINT it is in. -/
theorem longPrintIsSplitUnseen : Obligations.LongPrintIsSplitUnseen := by
  unfold Obligations.LongPrintIsSplitUnseen
  intro c w text
  obtain ⟨parts, hparts, hsplit⟩ := printRequestsFrom_splitsText (text := text) le_rfl
  exact ⟨parts, hparts, hsplit.short, hsplit.full, by rw [← printEvents_flatten, hsplit.flatten]⟩

end Sys2Proof.Machine
end

section
/-! PROOFS. A reserved opcode, and an idle block (30_encoding.md R71, R73). -/

namespace Sys2Proof.Machine

/-- The reserved ranges of R73 assign no opcode. -/
theorem ofByte_of_reserved {b : Byte} (h : b = 0x00 ∨ (0x08 ≤ b ∧ b ≤ 0x0F) ∨ 0x18 ≤ b) : Opcode.ofByte b = none := by
  cases ho : Opcode.ofByte b with
  | none => rfl
  | some o =>
    obtain rfl := Opcode.code_of_ofByte ho
    have assigned : ∀ o : Opcode, ¬ (o.code = 0x00 ∨ (0x08 ≤ o.code ∧ o.code ≤ 0x0F) ∨ 0x18 ≤ o.code) := by
      intro o; cases o <;> decide
    exact absurd h (assigned o)

/-- A byte that makes the buffer start with a reserved opcode is fault entry (R73, D15). -/
theorem State.writeReq_of_reserved {s : State} {w : BusWidth} (hr : s.Ready w) {b op : Byte}
    (hd : decodeRequest (s.rq ++ [b]) = .reserved op) :
    s.writeReq b = .next ({ s with rq := s.rq ++ [b] }.raise .badOpcode op) := by
  simp [State.writeReq, hr.fault, hr.busy, hd]

/-- Settles O21: the first byte alone is decoded as a reserved opcode. -/
theorem reservedOpcodeFaults : Obligations.ReservedOpcodeFaults := by
  unfold Obligations.ReservedOpcodeFaults
  intro s w b rest hr hrq hh hb
  have hd : decodeRequest (s.rq ++ [b]) = .reserved b := by
    rw [hrq]; exact decodeRequest_of_reserved (ofByte_of_reserved hb) []
  rw [step_of_reqWrite hh, hr.holdsWrite, if_neg Bool.false_ne_true, State.writeReq_of_reserved (hr.withHost rest) hd]
  simp [State.raise, ConfigError.code, hrq]

/-- Settles O23: with a silent host the step is a block step, and with nothing pending that changes nothing. -/
theorem idleBlockWaits : Obligations.IdleBlockWaits := by
  unfold Obligations.IdleBlockWaits
  intro s hh hs
  rw [step_of_silent hh, State.blockStep, hs]

end Sys2Proof.Machine
end

section
/-! PROOFS. The meanings of the rows of bus traffic (30_encoding.md R76 to R78). -/

namespace Sys2Proof.Machine

theorem State.wireByte_of_running {s : State} {w : BusWidth} (hw : s.config.width? = some w)
    (hf : s.status.fault = false) (rs : Bool) (b : Byte) :
    s.wireByte rs b = .next (s.emit (writeByte s.config w rs b)) :=
  State.traffic_of_running hw hf _

theorem State.wireNibble_of_four {s : State} (hw : s.config.width? = some .four) (hf : s.status.fault = false)
    (v : Nibble) :
    s.wireNibble v =
      .next (s.emit ((if (s.lines.applyAll s.seq).rs then [.drive .rs false] else []) ++ transfer s.config v)) :=
  State.traffic_of_running hw hf _

theorem State.wireNibble_of_eight {s : State} (hw : s.config.width? = some .eight) (hf : s.status.fault = false)
    (v : Nibble) : s.wireNibble v = .refused .nibbleNeedsFourLines :=
  State.traffic_of_running hw hf _

/-! ## The bit patterns of R76 -/

theorem displayModeByte_bits : ∀ x y : Bool,
    displayModeByte x y = 0b000001#6 ++ BitVec.ofBool x ++ BitVec.ofBool y := by decide

theorem displayControlByte_bits : ∀ x y z : Bool,
    displayControlByte x y z = 0b00001#5 ++ BitVec.ofBool x ++ BitVec.ofBool y ++ BitVec.ofBool z := by decide

theorem functionSetByte_bits : ∀ x y z : Bool,
    functionSetByte x y z = 0b001#3 ++ BitVec.ofBool x ++ BitVec.ofBool y ++ BitVec.ofBool z ++ 0b00#2 := by decide

/-- The sum of R83 carries nothing: row and column stand in bits of their own. -/
theorem cursorAddressByte_bits : ∀ (x : Bool) (c : BitVec 6),
    cursorAddressByte (c.zeroExtend 8) ((BitVec.ofBool x).zeroExtend 8) = 0b1#1 ++ BitVec.ofBool x ++ c := by
  decide +kernel

/-- Settles O48: every byte row emits one byte write, of the byte with its bit pattern. -/
theorem wireRowsEmitTheirByte : Obligations.WireRowsEmitTheirByte := by
  unfold Obligations.WireRowsEmitTheirByte
  intro s w x y z g c d hw hf after
  have emitted (rs : Bool) (b : Byte) : s.wireByte rs b = .next (after rs b) := State.wireByte_of_running hw hf rs b
  rw [← displayModeByte_bits, ← displayControlByte_bits, ← functionSetByte_bits, ← cursorAddressByte_bits]
  exact ⟨emitted _ _, emitted _ _, emitted _ _, emitted _ _, emitted _ _, emitted _ _, emitted _ _, emitted _ _⟩

/-- Settles O49: the two nibble rows are one operation, which needs N = 4. -/
theorem wireNibblesAreLoneTransfers : Obligations.WireNibblesAreLoneTransfers := by
  unfold Obligations.WireNibblesAreLoneTransfers
  exact ⟨fun s hw hf => ⟨State.wireNibble_of_four hw hf 0x3, State.wireNibble_of_four hw hf 0x2⟩,
    fun s hw hf => ⟨State.wireNibble_of_eight hw hf 0x3, State.wireNibble_of_eight hw hf 0x2⟩⟩

end Sys2Proof.Machine
end

section
/-! PROOFS. The flag primitive and the setters: a setter checks its operand, and then moves its flag and completes, or
faults (40_command_registers.md R100 to R109, R111). -/

namespace Sys2Proof.Machine

/-! ## The flag primitive -/

/-- R100, bit by bit. -/
theorem getLsbD_setFlag (reg mask : Byte) (v : Bool) {k : Nat} (hk : k < 8) :
    (setFlag reg mask v).getLsbD k = if mask.getLsbD k then v else reg.getLsbD k := by
  cases v <;> cases hm : mask[k] <;> simp [setFlag, hk, hm]

theorem setFlag_setFlag (reg mask : Byte) (v : Bool) : setFlag (setFlag reg mask v) mask v = setFlag reg mask v := by
  refine BitVec.eq_of_getLsbD_eq fun k hk => ?_
  simp only [getLsbD_setFlag _ _ _ hk]
  split <;> rfl

/-- Settles O28: SetFlag bit by bit. -/
theorem setFlagMovesTheMaskOnly : Obligations.SetFlagMovesTheMaskOnly := by
  unfold Obligations.SetFlagMovesTheMaskOnly
  intro reg mask v
  exact ⟨rfl, fun _ hk => getLsbD_setFlag reg mask v hk, setFlag_setFlag reg mask v⟩

/-! ## Requests that check an operand -/

section
variable {s : State} {w : BusWidth} {op : Opcode} {α : Type} {check : BusWidth → Except ConfigError α}

/-- A legal operand on a ready block: the request is accepted after its register updates (R31). -/
theorem State.request_checked_ok {updated : BusWidth → α → State} {events : BusWidth → α → List BusEvent}
    (hr : s.Ready w) {a : α} (hc : check w = .ok a) :
    s.request op (fun w => (check w).map fun a => (updated w a, events w a)) =
      .next ((updated w a).accept op (events w a)) := by
  rw [State.request_of_ready hr, hc]
  rfl

/-- An illegal operand on a ready block is fault entry with the request's own opcode, and nothing else (R222, R223). -/
theorem State.request_checked_error {planned : BusWidth → α → State × List BusEvent} (hr : s.Ready w)
    {error : ConfigError} (hc : check w = .error error) :
    s.request op (fun w => (check w).map (planned w)) = .next (s.raise error op.code) := by
  rw [State.request_of_ready hr, hc]
  rfl

/-- A legal operand of a request without events: the request is complete at once (R30, R111), and leaves its register
updates, an empty RQ, and its opcode in CUROP. -/
theorem State.request_completes {updated : α → State} (hr : s.Ready w) {a : α} (hc : check w = .ok a)
    (hop : op ≠ .init) (hstatus : (updated a).status = s.status) :
    s.request op (fun w => (check w).map fun a => (updated a, [])) = .next { updated a with
      rq := []
      curop := op.code
      status := { s.status with rqPart := false } } := by
  have hinit : (op.code == Opcode.init.code) = false := by
    cases op
    case init => exact absurd rfl hop
    all_goals rfl
  rw [State.request_checked_ok (events := fun _ _ => []) hr hc, State.accept_eq, hstatus, hinit]
  simp [hr.busy]

end

/-! ## Legal and illegal operands -/

theorem busWidthOperand_own (w : BusWidth) :
    busWidthOperand w (BitVec.ofNat 8 w.lines) = .ok (decide (w = .eight)) := by
  cases w <;> rfl

theorem busWidthOperand_of_mismatch {w : BusWidth} {b : Byte} (hown : b ≠ BitVec.ofNat 8 w.lines)
    (hlegal : b = 4 ∨ b = 8) : busWidthOperand w b = .error .busWidthMismatch := by
  rcases hlegal with rfl | rfl <;> cases w
  case inl.four | inr.eight => exact absurd rfl hown
  case inl.eight | inr.four => rfl

theorem busWidthOperand_of_illegal (w : BusWidth) {b : Byte} (h : ¬ (b = 4 ∨ b = 8)) :
    busWidthOperand w b = .error .badBusWidth := by
  obtain ⟨h4, h8⟩ := not_or.mp h
  rw [busWidthOperand, if_neg h4, if_neg h8]

theorem lineCountOperand_of_legal {n : Byte} (h : n = 1 ∨ n = 2) : lineCountOperand n = .ok (n == 2) := by
  rcases h with rfl | rfl <;> rfl

theorem boolOperand_toByte (v : Bool) : boolOperand (if v then 1 else 0) = .ok v := by
  cases v <;> rfl

/-! ## SETBW, SETLINES and SETFONT -/

/-- Settles O29: the block's own width is the operand SETBW takes, and the invariant has the flag at (N = 8) already. -/
theorem setbwAcceptsTheBlocksWidth : Obligations.SetbwAcceptsTheBlocksWidth := by
  unfold Obligations.SetbwAcceptsTheBlocksWidth
  intro s w hr
  have hset : exec (.setbw (BitVec.ofNat 8 w.lines)) s = .next { s with
      fs := setFlag s.fs flagEightBit (decide (w = .eight))
      rq := []
      curop := 0x10
      status := { s.status with rqPart := false } } :=
    State.request_completes hr (busWidthOperand_own w) nofun rfl
  refine ⟨?_, fun hinv => ⟨_, hset, setFlag_eightBit (hinv.shadows w hr.width).fs⟩⟩
  rw [hset]
  cases w <;> rfl

/-- Settles O30: of the widths that are not the block's own, the legal one is a mismatch and any other is bad. -/
theorem setbwRefusesOtherWidths : Obligations.SetbwRefusesOtherWidths := by
  unfold Obligations.SetbwRefusesOtherWidths
  intro s w b hr hown
  by_cases hlegal : b = 4 ∨ b = 8
  · rw [if_pos hlegal]
    exact State.request_checked_error (error := .busWidthMismatch) hr (busWidthOperand_of_mismatch hown hlegal)
  · rw [if_neg hlegal]
    exact State.request_checked_error (error := .badBusWidth) hr (busWidthOperand_of_illegal w hlegal)

/-- R130, R131: a ready block accepts an INIT with a legal row count, whatever the columns. -/
theorem exec_init_of_legal {s : State} {w : BusWidth} (hr : s.Ready w) (columns : Byte) {rows : Byte}
    (hrows : rows = 1 ∨ rows = 2) :
    exec (.init columns rows) s =
      let fs := setFlag s.fs flagTwoLine (rows == 2)
      .next ({ s with fs := fs : State }.accept .init (initEvents s.config w fs s.dc s.dm)) :=
  State.request_checked_ok hr (lineCountOperand_of_legal hrows)

/-- Settles O31: SETLINES leaves the block ready, so an INIT after it is accepted too and sets the flag anew. -/
theorem setlinesSetsTheTwoLineFlag : Obligations.SetlinesSetsTheTwoLineFlag := by
  unfold Obligations.SetlinesSetsTheTwoLineFlag
  intro s w n hr
  have hset (hn : n = 1 ∨ n = 2) : exec (.setlines n) s = .next { s with
      fs := setFlag s.fs 0x08 (n == 2)
      rq := []
      curop := 0x11
      status := { s.status with rqPart := false } } :=
    State.request_completes hr (lineCountOperand_of_legal hn) nofun rfl
  refine ⟨decodeOfEncodeIsIdentity (.setlines n) rfl, hset, fun h1 h2 => ?_, fun columns rows hrows hn => ?_⟩
  · exact State.request_checked_error (error := .badLineCount) hr (lineCountOperand_eq_error.mpr ⟨⟨h1, h2⟩, rfl⟩)
  · refine ⟨_, _, hset hn, exec_init_of_legal (w := w) ?_ columns hrows, ?_⟩
    · exact ⟨hr.width, hr.fault, hr.busy⟩
    · rw [State.accept_fs]
      exact getLsbD_setFlag _ flagTwoLine _ (by decide)

/-- Settles O32: the two legal codes, and any other. -/
theorem setfontSetsTheFontFlag : Obligations.SetfontSetsTheFontFlag := by
  unfold Obligations.SetfontSetsTheFontFlag
  intro s w f hr
  have hset {tall : Bool} (hf : fontOperand f = .ok tall) : exec (.setfont f) s = .next { s with
      fs := setFlag s.fs flagTallFont tall
      rq := []
      curop := 0x12
      status := { s.status with rqPart := false } } :=
    State.request_completes hr hf nofun rfl
  refine ⟨?_, fun h8 h11 =>
    State.request_checked_error (error := .badFont) hr (fontOperand_eq_error.mpr ⟨⟨h8, h11⟩, rfl⟩)⟩
  rintro (rfl | rfl)
  · exact hset (fontOperand_eq_ok (tall := false).mpr rfl)
  · exact hset (fontOperand_eq_ok (tall := true).mpr rfl)

/-! ## The boolean setters -/

/-- Settles O33: the three setters are one operation on DC, with a flag of their own. -/
theorem displayControlSettersSetTheirFlag : Obligations.DisplayControlSettersSetTheirFlag := by
  unfold Obligations.DisplayControlSettersSetTheirFlag
  intro s w v hr b after
  have hb : boolOperand b = .ok v := boolOperand_toByte v
  exact ⟨State.request_completes hr hb nofun rfl, State.request_completes hr hb nofun rfl,
    State.request_completes hr hb nofun rfl⟩

/-- Settles O34: the two setters are one operation on DM, with a flag of their own. -/
theorem displayModeSettersSetTheirFlag : Obligations.DisplayModeSettersSetTheirFlag := by
  unfold Obligations.DisplayModeSettersSetTheirFlag
  intro s w v hr b after
  have hb : boolOperand b = .ok v := boolOperand_toByte v
  exact ⟨State.request_completes hr hb nofun rfl, State.request_completes hr hb nofun rfl⟩

/-- Settles O35: the five setters check their operand alike. -/
theorem boolSettersRefuseOtherBytes : Obligations.BoolSettersRefuseOtherBytes := by
  unfold Obligations.BoolSettersRefuseOtherBytes
  intro s w b hr h0 h1 after
  have refused (op : Opcode) (planned : Bool → State × List BusEvent) :
      s.request op (fun _ => (boolOperand b).map planned) = .next (after op.code) :=
    State.request_checked_error (error := .badBool) hr (boolOperand_eq_error.mpr ⟨⟨h0, h1⟩, rfl⟩)
  exact ⟨refused .setdisp _, refused .setcurs _, refused .setblink _, refused .setdir _, refused .setshift _⟩

end Sys2Proof.Machine
end

section
/-! PROOFS. INIT: what it leaves pending, and the least gaps between the pulses of its handshake (41_initialization.md
R130 to R133, R138). -/

namespace Sys2Proof.Machine

/-! ## The gaps of a transfer -/

theorem pulseGaps_wait (high : Bool) (since : Option Nat) (rise t : Nat) (events : List BusEvent) :
    pulseGaps high since rise (.wait t :: events) = pulseGaps high (since.map (· + t)) rise events := rfl

theorem pulseGaps_driveRs (high : Bool) (since : Option Nat) (rise : Nat) (rs : Bool) (events : List BusEvent) :
    pulseGaps high since rise (.drive .rs rs :: events) = pulseGaps high since rise events := rfl

/-- The drives of the data lines take no least time and move no pulse. -/
theorem pulseGaps_dataDrives (high : Bool) (since : Option Nat) (rise : Nat) {n : Nat} (v : BitVec n)
    (events : List BusEvent) :
    pulseGaps high since rise (dataDrives v ++ events) = pulseGaps high since rise events := by
  unfold dataDrives
  generalize List.range n = lines
  induction lines with
  | nil => rfl
  | cons i lines ih => exact ih

/-- No pulse comes before the first transfer: it ends no gap, and starts one with its settle wait (R182). -/
theorem pulseGaps_firstTransfer (c : Config) (rise : Nat) {n : Nat} (v : BitVec n) (events : List BusEvent) :
    pulseGaps false none rise (transfer c v ++ events) = pulseGaps false (some c.tSettle) 0 events := by
  rw [transfer, List.append_assoc, pulseGaps_dataDrives]
  simp [enablePulse, pulseGaps]

/-- A transfer `time` after the last falling edge ends a gap: E rises T_EN_LOW later and falls T_EN_HIGH after that.
Its settle wait starts the next gap (R182). -/
theorem pulseGaps_transfer (c : Config) (time rise : Nat) {n : Nat} (v : BitVec n) (events : List BusEvent) :
    pulseGaps false (some time) rise (transfer c v ++ events) =
      ⟨time + c.tEnLow, time + (c.tEnLow + c.tEnHigh)⟩ :: pulseGaps false (some c.tSettle) 0 events := by
  rw [transfer, List.append_assoc, pulseGaps_dataDrives]
  simp [enablePulse, pulseGaps, Nat.add_assoc]

/-! ## The event lists -/

/-- R132, as one flat list of transfers, waits and byte writes. -/
theorem initEvents_four (c : Config) (fs dc dm : Byte) :
    initEvents c .four fs dc dm =
      .drive .rs false :: (transfer c (0x3 : Nibble) ++ .wait c.tInitA :: (transfer c (0x3 : Nibble) ++
        .wait c.tInitB :: (transfer c (0x3 : Nibble) ++ .wait c.tInitC :: (transfer c (0x2 : Nibble) ++
        (writeByte c .four false fs ++ (writeByte c .four false dc ++ writeByte c .four false dm)))))) := by
  simp [initEvents, initEventsFour, writeCommand]

/-- R133, as one flat list of byte writes and waits. -/
theorem initEvents_eight (c : Config) (fs dc dm : Byte) :
    initEvents c .eight fs dc dm =
      writeByte c .eight false fs ++ .wait c.tInitA :: (writeByte c .eight false fs ++ .wait c.tInitC ::
        (writeByte c .eight false fs ++ (writeByte c .eight false fs ++
        (writeByte c .eight false dc ++ writeByte c .eight false dm)))) := by
  simp [initEvents, initEventsEight, writeCommand]

/-- Settles O54: each of the first four transfers ends the gap that the settle wait of the one before it starts, and
INIT's own wait stands in that gap. -/
theorem initGapsAreKept : Obligations.InitGapsAreKept := by
  unfold Obligations.InitGapsAreKept
  intro c fs dc dm pulse
  constructor
  case left =>
    simp only [transferGaps, initEvents_four, pulseGaps_driveRs, pulseGaps_firstTransfer, pulseGaps_transfer,
      pulseGaps_wait, Option.map_some]
    rfl
  case right =>
    simp only [transferGaps, initEvents_eight, writeByte_eight, List.cons_append, pulseGaps_driveRs,
      pulseGaps_firstTransfer, pulseGaps_transfer, pulseGaps_wait, Option.map_some]
    rfl

/-! ## What INIT leaves -/

/-- R100, R131: SetFlag of the 2-line flag, with its mask written out. -/
theorem setFlag_twoLine_of_rows (fs rows : Byte) :
    setFlag fs flagTwoLine (rows == 2) = if rows = 2 then fs ||| 0x08 else fs &&& 0xF7 := by
  simp [setFlag, flagTwoLine]

/-- An INIT with a legal row count on a ready block: its event list is pending, and the block is busy (R31, R130). -/
theorem exec_init_pending {s : State} {w : BusWidth} (hr : s.Ready w) (columns : Byte) {rows : Byte}
    (hrows : rows = 1 ∨ rows = 2) :
    exec (.init columns rows) s =
      let fs := if rows = 2 then s.fs ||| 0x08 else s.fs &&& 0xF7
      .next { s with
        fs := fs
        rq := []
        curop := 0x01
        seq := initEvents s.config w fs s.dc s.dm
        status := { s.status with busy := true, rqPart := false } } := by
  rw [exec_init_of_legal hr columns hrows, setFlag_twoLine_of_rows]
  simp [State.accept_eq, initEvents_ne_nil, Opcode.code]

/-- Settles O36: the list of R132 is pending. -/
theorem initOnFourLinesStartsTheHandshake : Obligations.InitOnFourLinesStartsTheHandshake := by
  unfold Obligations.InitOnFourLinesStartsTheHandshake
  intro s columns rows hr hrows fs nibble command
  simp [exec_init_pending hr columns hrows, initEvents_four, fs, nibble, command]

/-- Settles O37: the list of R133 is pending. -/
theorem initOnEightLinesStartsTheHandshake : Obligations.InitOnEightLinesStartsTheHandshake := by
  unfold Obligations.InitOnEightLinesStartsTheHandshake
  intro s columns rows hr hrows fs command
  simp [exec_init_pending hr columns hrows, initEvents_eight, fs, command]

/-- Settles O38: the row count is checked before anything else is done. -/
theorem initRefusesOtherRowCounts : Obligations.InitRefusesOtherRowCounts := by
  unfold Obligations.InitRefusesOtherRowCounts
  intro s w columns rows hr h1 h2
  exact State.request_checked_error (error := .badLineCount) hr (lineCountOperand_eq_error.mpr ⟨⟨h1, h2⟩, rfl⟩)

end Sys2Proof.Machine
end

section
/-! PROOFS. The display operations: a request checks its operands, and then leaves its event list pending, or faults
(42_display_operations.md R150 to R155). -/

namespace Sys2Proof.Machine

/-! ## Requests with events -/

section
variable {s : State} {w : BusWidth} {op : Opcode}

/-- A legal operand of a request that has events and updates no register, on a ready block: the events are pending, the
block is busy, RQ is empty, and the request's opcode is in CUROP (R30, R31). -/
theorem State.request_pending {α : Type} {check : BusWidth → Except ConfigError α}
    {events : BusWidth → α → List BusEvent} (hr : s.Ready w) {a : α} (hc : check w = .ok a) (hne : events w a ≠ []) :
    s.request op (fun w => (check w).map fun a => (s, events w a)) = .next { s with
      rq := []
      curop := op.code
      seq := events w a
      status := { s.status with busy := true, rqPart := false } } := by
  rw [State.request_checked_ok (updated := fun _ _ => s) hr hc]
  simp [State.accept_eq, hne]

/-- The same for a request that checks nothing. -/
theorem State.request_unchecked_pending (events : BusWidth → List BusEvent) (hr : s.Ready w) (hne : events w ≠ []) :
    s.request op (fun w => .ok (s, events w)) = .next { s with
      rq := []
      curop := op.code
      seq := events w
      status := { s.status with busy := true, rqPart := false } } :=
  State.request_pending (check := fun _ => .ok ()) (events := fun w _ => events w) hr rfl hne

end

/-- Performing the last pending event ends BUSY (R30). -/
theorem State.blockStep_busy_of_last {s : State} {event : BusEvent} (hs : s.seq = [event]) :
    s.blockStep.status.busy = false := by
  rw [State.blockStep_of_pending hs]
  rfl

/-! ## CLEAR and HOME -/

/-- Settles O39: CLEAR checks nothing, and its Wait is the last event. -/
theorem clearSendsItsCommandAndWaits : Obligations.ClearSendsItsCommandAndWaits := by
  unfold Obligations.ClearSendsItsCommandAndWaits
  refine ⟨decodeOfEncodeIsIdentity .clear rfl, fun s w hr => ?pending, fun s hs => State.blockStep_busy_of_last hs⟩
  case pending =>
    have hne : clearEvents s.config w ≠ [] := List.append_ne_nil_of_right_ne_nil _ (List.cons_ne_nil _ _)
    exact State.request_unchecked_pending (clearEvents s.config) hr hne

/-- Settles O40: HOME checks nothing, its Wait is the last event, and its command byte goes out high nibble first. -/
theorem homeSendsItsCommandAndWaits : Obligations.HomeSendsItsCommandAndWaits := by
  unfold Obligations.HomeSendsItsCommandAndWaits
  refine ⟨decodeOfEncodeIsIdentity .home rfl, fun s w hr => ?pending, fun s hs => State.blockStep_busy_of_last hs,
    fun c l he => ⟨fun hd => ?four, fun hd => ?eight⟩⟩
  case pending =>
    have hne : homeEvents s.config w ≠ [] := List.append_ne_nil_of_right_ne_nil _ (List.cons_ne_nil _ _)
    exact State.request_unchecked_pending (homeEvents s.config) hr hne
  case four => exact highNibbleGoesFirst c .four false 0x02 l hd he
  case eight => exact highNibbleGoesFirst c .eight false 0x02 l hd he

/-! ## MOVE -/

/-- The bits `1 r cccccc` are the sum of R110, without a carry. -/
theorem toNat_cursorBits (row : Bool) (column : BitVec 6) :
    (0b1#1 ++ BitVec.ofBool row ++ column).toNat = 0x80 + row.toNat * 0x40 + column.toNat := by
  rw [BitVec.toNat_append, ← Nat.shiftLeft_add_eq_or_of_lt column.isLt]
  cases row <;> rfl

/-- Row 0 or 1 and any six-bit column are a legal position (R110, D10). -/
theorem cursorAddress_bits (row : Bool) (column : BitVec 6) :
    cursorAddress (column.zeroExtend 8) (if row then 1 else 0) = .ok (0b1#1 ++ BitVec.ofBool row ++ column) := by
  have hrow : (if row then 1 else 0 : Byte) = (BitVec.ofBool row).zeroExtend 8 := by cases row <;> rfl
  have hlegal : (if row then 1 else 0 : Byte) = 0 ∨ (if row then 1 else 0 : Byte) = 1 := by cases row <;> simp
  have hcolumn : column.zeroExtend 8 ≤ (0x3F : Byte) := by bv_omega
  rw [cursorAddress_of_legal hlegal hcolumn, hrow, cursorAddressByte_bits]

theorem cursorAddress_of_badRow (column : Byte) {row : Byte} (h : 1 < row) :
    cursorAddress column row = .error .badRow := by
  have hrow : ¬ (row = 0 ∨ row = 1) := by
    rintro (rfl | rfl) <;> exact absurd h (by decide)
  rw [cursorAddress, if_neg hrow]

/-- The column is checked once the row is legal (R225). -/
theorem cursorAddress_of_badColumn {column row : Byte} (hrow : ¬ 1 < row) (hcolumn : 0x3F < column) :
    cursorAddress column row = .error .badColumn := by
  have hlegal : row = 0 ∨ row = 1 := by bv_omega
  rw [cursorAddress, if_pos hlegal, if_neg (BitVec.not_le.mpr hcolumn)]

/-- Settles O41: the position is legal, and its cursor address has the bits of R76. -/
theorem moveSendsTheCursorAddress : Obligations.MoveSendsTheCursorAddress := by
  unfold Obligations.MoveSendsTheCursorAddress
  intro s w column row hr address
  have hlegal : cursorAddress (column.zeroExtend 8) (if row then 1 else 0) = .ok address :=
    cursorAddress_bits row column
  exact ⟨toNat_cursorBits row column, State.request_pending hr hlegal (writeByte_ne_nil s.config w false address)⟩

/-- Settles O42: the row is checked first, and the column if the row is legal. -/
theorem moveChecksRowThenColumn : Obligations.MoveChecksRowThenColumn := by
  unfold Obligations.MoveChecksRowThenColumn
  intro s w column row hr hbad
  by_cases hrow : 1 < row
  · rw [if_pos hrow]
    exact State.request_checked_error (error := .badRow) hr (cursorAddress_of_badRow column hrow)
  · rw [if_neg hrow]
    exact State.request_checked_error (error := .badColumn) hr
      (cursorAddress_of_badColumn hrow (hbad.resolve_left hrow))

/-! ## PRINT -/

/-- Settles O43: a text with a byte has events, and the empty text completes at acceptance. -/
theorem printSendsItsBytesInOrder : Obligations.PrintSendsItsBytesInOrder := by
  unfold Obligations.PrintSendsItsBytesInOrder
  intro s w text hr hidle
  cases text with
  | nil =>
    have hdone : exec (.print []) s = .next { s with
        rq := []
        curop := 0x05
        status := { s.status with rqPart := false } } :=
      State.request_completes (check := fun _ => .ok ()) (updated := fun _ => s) hr rfl nofun rfl
    simp [hdone, hidle, hr.busy]
  | cons b text =>
    have hne : printEvents s.config w (b :: text) ≠ [] := by simp [printEvents, writeData, writeByte_ne_nil]
    exact State.request_unchecked_pending (fun w => printEvents s.config w (b :: text)) hr hne

/-! ## CGLYPH and SGLYPH -/

/-- Every three-bit index is legal (D11). -/
theorem glyphIndexOperand_zeroExtend (i : BitVec 3) : glyphIndexOperand (i.zeroExtend 8) = .ok i.toFin := by
  have hi : (i.zeroExtend 8).toNat = i.toNat := BitVec.toNat_setWidth_of_le (by decide)
  rw [glyphIndexOperand_of_lt (hi ▸ i.isLt)]
  exact congrArg Except.ok (Fin.ext hi)

/-- Settles O44: the index is legal, and the address command goes before the rows. -/
theorem cglyphSendsAddressAndRows : Obligations.CglyphSendsAddressAndRows := by
  unfold Obligations.CglyphSendsAddressAndRows
  intro s w i p0 p1 p2 p3 p4 p5 p6 p7 hr
  have hevents : cglyphEvents s.config w i.toFin [p0, p1, p2, p3, p4, p5, p6, p7] =
      writeCommand s.config w s.config.cgramCmd[i.toFin]
        ++ writeData s.config w p0 ++ writeData s.config w p1 ++ writeData s.config w p2 ++ writeData s.config w p3
        ++ writeData s.config w p4 ++ writeData s.config w p5 ++ writeData s.config w p6 ++ writeData s.config w p7 := by
    simp [cglyphEvents]
  have hne : cglyphEvents s.config w i.toFin [p0, p1, p2, p3, p4, p5, p6, p7] ≠ [] :=
    List.append_ne_nil_of_left_ne_nil (writeByte_ne_nil _ _ _ _) _
  rw [← hevents]
  exact State.request_pending hr (glyphIndexOperand_zeroExtend i) hne

/-- Settles O45: the index is legal, and its one data write is what PRINT of it leaves pending. -/
theorem sglyphPrintsItsIndex : Obligations.SglyphPrintsItsIndex := by
  unfold Obligations.SglyphPrintsItsIndex
  intro s w i hr
  have hne : writeData s.config w (i.zeroExtend 8) ≠ [] := writeByte_ne_nil _ _ _ _
  have hprint : printEvents s.config w [i.zeroExtend 8] = writeData s.config w (i.zeroExtend 8) := by
    simp [printEvents]
  have hglyph : exec (.sglyph (i.zeroExtend 8)) s = .next { s with
      rq := []
      curop := 0x07
      seq := writeData s.config w (i.zeroExtend 8)
      status := { s.status with busy := true, rqPart := false } } :=
    State.request_pending hr (glyphIndexOperand_zeroExtend i) hne
  have hprinted := State.request_unchecked_pending (op := .print)
    (fun w => printEvents s.config w [i.zeroExtend 8]) hr (hprint ▸ hne)
  exact ⟨hglyph, _, _, hglyph, hprinted, hprint.symm⟩

/-- Settles O46: the two requests check their index alike. -/
theorem glyphIndexAboveSevenFaults : Obligations.GlyphIndexAboveSevenFaults := by
  unfold Obligations.GlyphIndexAboveSevenFaults
  intro s w idx p0 p1 p2 p3 p4 p5 p6 p7 hr hidx after
  have refused (op : Opcode) (planned : BusWidth → Fin 8 → State × List BusEvent) :
      s.request op (fun w => (glyphIndexOperand idx).map (planned w)) = .next (after op.code) :=
    State.request_checked_error (error := .badGlyphIndex) hr (glyphIndexOperand_of_ge hidx)
  exact ⟨refused .cglyph _, refused .sglyph _⟩

end Sys2Proof.Machine
end

section
/-! PROOFS. Every step keeps the discipline of the enable pulse (43_bus_framing.md R182, R184, R187, R188). -/

namespace Sys2Proof.Machine

/-- With nothing pending, what a meaning leaves pending is made of bus items. -/
theorem exec_pending_madeOfItems {i : Instr} {s t : State} (hs : s.seq = []) (he : exec i s = .next t) :
    ∃ w, MadeOfItems s.config w t.seq := by
  have unchanged : ∃ w, MadeOfItems s.config w s.seq := ⟨.four, hs ▸ .nil _ _⟩
  rcases exec_cases he with ⟨_, rfl⟩ | ⟨_, _, _, _, rfl⟩ | ⟨w, _, _, _, op, events, _, rfl, hitems, _⟩ |
    ⟨w, events, _, _, _, _, hitems, rfl⟩
  · exact unchanged
  · exact unchanged
  · rw [State.accept_seq]
    split
    · exact unchanged
    · exact ⟨w, hitems⟩
  · rw [State.emit_seq, hs]
    exact ⟨w, hitems⟩

/-- With nothing pending, what a REQ write leaves pending is made of bus items (R32). -/
theorem State.writeReq_pending_madeOfItems {s t : State} {b : Byte} (hs : s.seq = []) (hw : s.writeReq b = .next t) :
    ∃ w, MadeOfItems s.config w t.seq := by
  have unchanged : ∃ w, MadeOfItems s.config w s.seq := ⟨.four, hs ▸ .nil _ _⟩
  rcases State.writeReq_cases hw with ⟨_, rfl⟩ | ⟨_, _, ⟨_, rfl⟩ | ⟨_, _, rfl⟩ | ⟨i, _, _, he⟩⟩
  · exact unchanged
  · exact unchanged
  · exact unchanged
  · exact exec_pending_madeOfItems (s := { s with rq := s.rq ++ [b] }) hs he

/-- A REQ write with nothing pending puts whole transfers behind the trace. -/
theorem State.PulseDisciplined.writeReq {s t : State} {b : Byte} (h : s.PulseDisciplined) (hs : s.seq = [])
    (hw : s.writeReq b = .next t) : t.PulseDisciplined := by
  obtain ⟨w, hitems⟩ := State.writeReq_pending_madeOfItems hs hw
  have hseq : t.seq = s.seq ++ t.seq := by rw [hs, List.nil_append]
  exact h.append (State.writeReq_config hw) (State.writeReq_tr hw) hseq hitems

/-- A block step moves one event from the pending ones to the performed ones, and leaves their sequence as it is. -/
theorem State.blockStep_events (s : State) :
    s.blockStep.tr.map Performed.event ++ s.blockStep.seq = s.tr.map Performed.event ++ s.seq := by
  cases hs : s.seq with
  | nil => simp [State.blockStep, hs]
  | cons event rest => simp [State.blockStep_of_pending hs]

theorem State.PulseDisciplined.blockStep {s : State} (h : s.PulseDisciplined) : s.blockStep.PulseDisciplined := by
  unfold State.PulseDisciplined at h ⊢
  rw [State.blockStep_config, State.blockStep_events, h]

/-- A reset block has performed nothing and has nothing pending (R250, R231). -/
theorem State.PulseDisciplined.rebuild (s : State) : s.rebuild.PulseDisciplined := by
  have hevents : s.rebuild.tr.map Performed.event ++ s.rebuild.seq = [] := by
    rw [State.rebuild_tr, State.rebuild_seq, State.construct]
    split <;> rfl
  rw [State.PulseDisciplined, hevents]
  rfl

/-- Settles O12: a block step leaves the sequence of events as it is, a REQ write is taken with nothing pending only
and puts whole transfers at its end, and a reset empties it. -/
theorem stepKeepsThePulseDiscipline : Obligations.StepKeepsThePulseDiscipline := by
  unfold Obligations.StepKeepsThePulseDiscipline
  intro s t hinv hpulse hstep
  rcases step_cases hstep with ⟨_, rfl⟩ | ⟨rest, _, rfl⟩ | ⟨_, _, rest, _, _, rfl⟩ | ⟨_, _, rest, _, _, _, rfl⟩ |
    ⟨_, b, rest, _, _, hw, hreq⟩ | ⟨_, _, _, rest, _, _, _, rfl⟩ | ⟨rest, _, rfl⟩
  · exact hpulse.blockStep
  · exact State.PulseDisciplined.blockStep (s := { s with host := rest }) hpulse
  · exact hpulse
  · exact hpulse.blockStep
  · exact State.PulseDisciplined.writeReq (s := { s with host := rest }) hpulse (hinv.seq_of_writable hw) hreq
  · exact hpulse
  · exact .rebuild _

end Sys2Proof.Machine
end

section
/-! PROOFS. The event lists of the bus procedures, their least durations and their lengths (43_bus_framing.md R182, R185,
R190; 70_reset_and_hazards.md R260). -/

namespace Sys2Proof.Machine

/-- Settles O50: the drives are those of D[0] to D[3] or D[7], and the pulse follows them. -/
theorem transferIsItsEventList : Obligations.TransferIsItsEventList := by
  unfold Obligations.TransferIsItsEventList
  intro c v b pulse
  exact ⟨rfl, rfl⟩

/-- Settles O53: the drive of RS goes before the transfers of the byte. -/
theorem byteWriteIsItsTransfers : Obligations.ByteWriteIsItsTransfers := by
  unfold Obligations.ByteWriteIsItsTransfers
  intro c rs b
  exact ⟨writeByte_four c rs b, writeByte_eight c rs b, writeByte_length c .four rs b, writeByte_length c .eight rs b⟩

/-! ## The cost of a list of events -/

/-- What R190 counts of a list of events: its least duration and its number of events. -/
def eventCost (events : List BusEvent) : Nat × Nat := (minDuration events, events.length)

theorem eventCost_nil : eventCost [] = 0 := rfl

theorem eventCost_append (xs ys : List BusEvent) : eventCost (xs ++ ys) = eventCost xs + eventCost ys := by
  simp [eventCost, minDuration]

theorem eventCost_cons (event : BusEvent) (events : List BusEvent) :
    eventCost (event :: events) = (event.minTime, 1) + eventCost events :=
  eventCost_append [event] events

/-- Equal pieces cost their number times what one costs. -/
theorem eventCost_flatMap {α : Type} {f : α → List BusEvent} {cost : Nat × Nat} (h : ∀ a, eventCost (f a) = cost)
    (pieces : List α) : eventCost (pieces.flatMap f) = pieces.length • cost := by
  induction pieces with
  | nil => rw [List.flatMap_nil, eventCost_nil, List.length_nil, zero_smul]
  | cons a pieces ih => rw [List.flatMap_cons, eventCost_append, h, ih, List.length_cons, succ_nsmul']

/-- The drives of the data lines have no least duration (R33). -/
theorem eventCost_dataDrives {n : Nat} (v : BitVec n) : eventCost (dataDrives v) = (0, n) := by
  have hfree : minDuration (dataDrives v) = 0 := by simp [minDuration, dataDrives, Function.comp_def, BusEvent.minTime]
  rw [eventCost, hfree, dataDrives_length]

/-- A transfer takes the three waits of its pulse (R182). -/
theorem eventCost_transfer (c : Config) {n : Nat} (v : BitVec n) :
    eventCost (transfer c v) = (c.tEnLow + c.tEnHigh + c.tSettle, n + 6) := by
  rw [transfer, eventCost_append, eventCost_dataDrives]
  simp [enablePulse, eventCost, minDuration, BusEvent.minTime, Nat.add_assoc]

/-- A byte write on four lines is a drive and two transfers (R185). -/
theorem eventCost_writeByte_four (c : Config) (rs : Bool) (b : Byte) :
    eventCost (writeByte c .four rs b) = (2 * (c.tEnLow + c.tEnHigh + c.tSettle), 21) := by
  rw [writeByte_four, eventCost_cons, eventCost_append, eventCost_transfer, eventCost_transfer, two_mul]
  exact Prod.ext (Nat.zero_add _) rfl

/-- A byte write on eight lines is a drive and one transfer (R185). -/
theorem eventCost_writeByte_eight (c : Config) (rs : Bool) (b : Byte) :
    eventCost (writeByte c .eight rs b) = (c.tEnLow + c.tEnHigh + c.tSettle, 15) := by
  rw [writeByte_eight, eventCost_cons, eventCost_transfer]
  exact Prod.ext (Nat.zero_add _) rfl

/-- A command with a wait behind it costs the wait beside the byte write (R150, R151). -/
theorem eventCost_commandThenWait {c : Config} {w : BusWidth} {cost : Nat × Nat}
    (h : ∀ rs b, eventCost (writeByte c w rs b) = cost) (b : Byte) (t : Nat) :
    eventCost (writeCommand c w b ++ [.wait t]) = cost + (t, 1) := by
  rw [writeCommand, eventCost_append, h]
  rfl

/-- PRINT costs a byte write for each byte of the text (R153). -/
theorem eventCost_printEvents {c : Config} {w : BusWidth} {time count : Nat}
    (h : ∀ rs b, eventCost (writeByte c w rs b) = (time, count)) (text : List Byte) :
    eventCost (printEvents c w text) = (time * text.length, count * text.length) := by
  rw [printEvents, eventCost_flatMap (f := writeData c w) (h true), Prod.smul_mk, nsmul_eq_mul', nsmul_eq_mul']
  rfl

/-- CGLYPH costs what nine byte writes cost (R154). -/
theorem eventCost_cglyphEvents {c : Config} {w : BusWidth} {cost : Nat × Nat}
    (h : ∀ rs b, eventCost (writeByte c w rs b) = cost) (i : Fin 8) {rows : List Byte} (hrows : rows.length = 8) :
    eventCost (cglyphEvents c w i rows) = 9 • cost := by
  rw [cglyphEvents, writeCommand, eventCost_append, h, eventCost_flatMap (f := writeData c w) (h true), hrows,
    ← succ_nsmul']

/-- INIT on four lines costs ten transfers, its own three waits, and the drives of RS (R132). -/
theorem eventCost_initEvents_four (c : Config) (fs dc dm : Byte) :
    eventCost (initEvents c .four fs dc dm) =
      (10 * (c.tEnLow + c.tEnHigh + c.tSettle) + (c.tInitA + c.tInitB + c.tInitC), 107) := by
  simp only [initEvents_four, eventCost_cons, eventCost_append, eventCost_transfer, eventCost_writeByte_four,
    BusEvent.minTime, Prod.mk_add_mk]
  congr 1
  ring

/-- INIT on eight lines costs six byte writes and its own two waits (R133). -/
theorem eventCost_initEvents_eight (c : Config) (fs dc dm : Byte) :
    eventCost (initEvents c .eight fs dc dm) =
      (6 * (c.tEnLow + c.tEnHigh + c.tSettle) + (c.tInitA + c.tInitC), 92) := by
  simp only [initEvents_eight, eventCost_cons, eventCost_append, eventCost_writeByte_eight,
    BusEvent.minTime, Prod.mk_add_mk]
  congr 1
  ring

/-- Settles O55: every list is byte writes, nibbles and waits, and its cost is the sum of theirs. -/
theorem requestsTakeTheirLeastTime : Obligations.RequestsTakeTheirLeastTime := by
  unfold Obligations.RequestsTakeTheirLeastTime
  intro fs dc dm a i text rows hrows four eight cost
  have fourByte : ∀ rs b, cost (writeByte four .four rs b) = (204, 21) := eventCost_writeByte_four four
  have eightByte : ∀ rs b, cost (writeByte eight .eight rs b) = (102, 15) := eventCost_writeByte_eight eight
  refine ⟨?initFour, ?initEight, ?clearFour, ?clearEight, ?homeFour, ?homeEight, fourByte false a,
    eightByte false a, fourByte true a, eightByte true a, ?printFour, ?printEight, ?cglyphFour, ?cglyphEight⟩
  case initFour => exact (eventCost_initEvents_four four fs dc dm).trans (by decide)
  case initEight => exact (eventCost_initEvents_eight eight fs dc dm).trans (by decide)
  case clearFour => exact eventCost_commandThenWait fourByte 0x01 four.tClear
  case clearEight => exact eventCost_commandThenWait eightByte 0x01 eight.tClear
  case homeFour => exact eventCost_commandThenWait fourByte 0x02 four.tHome
  case homeEight => exact eventCost_commandThenWait eightByte 0x02 eight.tHome
  case printFour => exact eventCost_printEvents fourByte text
  case printEight => exact eventCost_printEvents eightByte text
  case cglyphFour => exact eventCost_cglyphEvents fourByte i hrows
  case cglyphEight => exact eventCost_cglyphEvents eightByte i hrows

end Sys2Proof.Machine
end

section
/-! PROOFS. A receiver in phase: what the receiver gets of the bus is the transcript, and of a byte write it gets the
byte (47_receiver_reference.md R200, R201). -/

namespace Sys2Proof.Machine

/-! ## The receiver follows the transcript -/

/-- The receiver latches a transfer of the transcript: the RS level and the levels of the data lines. -/
def Receiver.take (c : Config) (r : Receiver) (sent : Bool × List Bool) : Receiver :=
  r.latch sent.1 (receiverPins c sent.2 r.latches)

/-- R200: the receiver sees nothing of the bus but its transfers. -/
theorem Receiver.observe_eq_foldl_transcript (c : Config) (r : Receiver) (l : Lines) (events : List BusEvent) :
    Receiver.observe c r l events = (transcript l events).foldl (Receiver.take c) r := by
  induction events generalizing r l with
  | nil => rfl
  | cons event events ih =>
    rw [Receiver.observe, ih, transcript, Receiver.see]
    split <;> rfl

/-- The levels of the data lines that carry a value, D[0] first (R55). -/
def lineLevels {n : Nat} (v : BitVec n) : List Bool := (List.range n).map v.getLsbD

/-- The transfers of a byte write (R185). -/
def byteTransfers (w : BusWidth) (rs : Bool) (b : Byte) : List (Bool × List Bool) :=
  match w with
  | .four => [(rs, lineLevels (highNibble b)), (rs, lineLevels (lowNibble b))]
  | .eight => [(rs, lineLevels b)]

theorem transcript_writeByte (c : Config) (w : BusWidth) (rs : Bool) (b : Byte) {l : Lines}
    (hd : l.d.length = w.lines) (he : l.e = false) :
    transcript l (writeByte c w rs b) = byteTransfers w rs b := by
  cases w with
  | four =>
    rw [writeByte_four, transcript_driveRs]
    exact transcript_transfer_pair c (n := 4) _ _ (l := { l with rs := rs }) hd he
  | eight =>
    rw [writeByte_eight, transcript_driveRs]
    exact transcript_transfer c b (l := { l with rs := rs }) hd he

/-! ## The pins -/

theorem byteOfBits_getElem (bit : Nat → Bool) {k : Nat} (hk : k < 8) : (byteOfBits bit)[k] = bit k := by
  change BitVec.getLsbD (w := 1 + 1 + 1 + 1 + 1 + 1 + 1 + 1) (_ ++ _) k = bit k
  simp only [BitVec.getLsbD_append, BitVec.getLsbD_ofBool]
  interval_cases k <;> simp

/-- A pin that line D[i] alone reaches has the bit that D[i] carries (R5, R55). -/
theorem pinLevel_of_wired {c : Config} {i k : Nat} (hi : c.wiring.idxOf? k = some i) (hone : c.wiring.count k = 1)
    {n : Nat} (v : BitVec n) (hn : i < n) (latch : Nat) : pinLevel c (lineLevels v) latch k = v[i] := by
  simp [pinLevel, hi, hone, lineLevels, hn]

/-- R5: with the default wiring of four lines, DB7 to DB4 carry the nibble, whatever level the other pins float at. -/
theorem highNibble_receiverPins {c : Config} (hc : c.wiring = (Config.ardt 4).wiring) (v : Nibble) (latch : Nat) :
    highNibble (receiverPins c (lineLevels v) latch) = v := by
  have hpin : ∀ i < 4, c.wiring.idxOf? (4 + i) = some i ∧ c.wiring.count (4 + i) = 1 := by
    rw [hc]; decide
  ext i hi
  obtain ⟨hindex, hone⟩ := hpin i hi
  rw [highNibble, BitVec.getElem_extractLsb', BitVec.getLsbD_eq_getElem (by omega), receiverPins,
    byteOfBits_getElem _ (by omega), pinLevel_of_wired hindex hone v hi]

/-- R5: with the default wiring of eight lines, the pins carry the byte. -/
theorem receiverPins_eight {c : Config} (hc : c.wiring = (Config.ardt 8).wiring) (b : Byte) (latch : Nat) :
    receiverPins c (lineLevels b) latch = b := by
  have hpin : ∀ k < 8, c.wiring.idxOf? k = some k ∧ c.wiring.count k = 1 := by
    rw [hc]; decide
  ext k hk
  obtain ⟨hindex, hone⟩ := hpin k hk
  rw [receiverPins, byteOfBits_getElem _ hk, pinLevel_of_wired hindex hone b hk]

/-! ## Latching -/

/-- The receiver is in the block's bus mode and expects a high nibble (R201). -/
structure Receiver.InPhase (r : Receiver) (w : BusWidth) : Prop where
  mode : r.eightBit = decide (w = .eight)
  high : r.high = none

/-- R201: in 8-bit mode the receiver acts on what is on the pins. -/
theorem Receiver.latch_of_eightBit {r : Receiver} (h : r.eightBit = true) (rs : Bool) (pins : Byte) :
    r.latch rs pins = { r with latches := r.latches + 1 }.act rs pins := by
  simp [Receiver.latch, h]

/-- R201: in 4-bit mode the receiver keeps a first nibble. -/
theorem Receiver.latch_of_first {r : Receiver} (h : r.eightBit = false) (hh : r.high = none) (rs : Bool) (pins : Byte) :
    r.latch rs pins = { r with latches := r.latches + 1, high := some (rs, highNibble pins) } := by
  simp [Receiver.latch, h, hh]

/-- R201: in 4-bit mode the receiver acts on the byte that a second nibble completes. -/
theorem Receiver.latch_of_second {r : Receiver} (h : r.eightBit = false) {first : Bool} {high : Nibble}
    (hh : r.high = some (first, high)) (rs : Bool) (pins : Byte) :
    r.latch rs pins =
      { r with latches := r.latches + 1, high := none }.act (pairedSelect first rs r.latches)
        (high ++ highNibble pins) := by
  simp [Receiver.latch, h, hh]

theorem highNibble_append_lowNibble (b : Byte) : highNibble b ++ lowNibble b = b := by
  revert b; decide +kernel

/-- R201: in phase, the transfers of a byte write make the receiver act on the byte, with its RS level. -/
theorem Receiver.InPhase.take_byteTransfers {r : Receiver} {w : BusWidth} (hr : r.InPhase w) {c : Config}
    (hc : c.wiring = (Config.ardt w.lines).wiring) (rs : Bool) (b : Byte) :
    (byteTransfers w rs b).foldl (Receiver.take c) r =
      { r with latches := r.latches + (if w = BusWidth.four then 2 else 1) }.act rs b := by
  obtain ⟨hmode, hhigh⟩ := hr
  cases w with
  | four =>
    simp only [byteTransfers, List.foldl_cons, List.foldl_nil, Receiver.take]
    rw [Receiver.latch_of_first hmode hhigh, highNibble_receiverPins hc, Receiver.latch_of_second (by exact hmode) rfl,
      highNibble_receiverPins hc, highNibble_append_lowNibble, pairedSelect_self, ← hhigh]
    rfl
  | eight =>
    simp only [byteTransfers, List.foldl_cons, List.foldl_nil, Receiver.take]
    rw [Receiver.latch_of_eightBit hmode, receiverPins_eight hc]
    rfl

/-- Settles O56: the receiver follows the transcript, and the transcript of a byte write is the byte's transfers. -/
theorem receiverInPhaseGetsEveryByte : Obligations.ReceiverInPhaseGetsEveryByte := by
  unfold Obligations.ReceiverInPhaseGetsEveryByte
  intro c w r l rs b hc hd he hmode hhigh
  have hr : r.InPhase w := ⟨hmode, hhigh⟩
  rw [Receiver.observe_eq_foldl_transcript, transcript_writeByte c w rs b hd he]
  exact hr.take_byteTransfers hc rs b

end Sys2Proof.Machine
end

section
/-! PROOFS. INIT synchronises every receiver: its handshake leaves any receiver in phase, and the bytes after it set the
receiver's flags (47_receiver_reference.md R202, 41_initialization.md R132, R133). -/

namespace Sys2Proof.Machine

/-! ## The transfers of INIT -/

theorem transcript_wait (l : Lines) (t : Nat) (events : List BusEvent) :
    transcript l (.wait t :: events) = transcript l events := by
  simp [transcript, Lines.falls]

theorem transcript_transfer_append (c : Config) {n : Nat} (v : BitVec n) {l : Lines} (hd : l.d.length = n)
    (he : l.e = false) (events : List BusEvent) :
    transcript l (transfer c v ++ events) = (l.rs, lineLevels v) :: transcript { l with d := lineLevels v } events := by
  rw [transcript_append, transcript_transfer c v hd he, applyAll_transfer c v hd he]
  rfl

/-- The transfers of INIT before the bytes it sends in phase: the nibbles 3, 3, 3 and 2 on four lines (R132), and the
FunctionSet byte three times on eight (R133). -/
def handshakeTransfers (w : BusWidth) (fs : Byte) : List (Bool × List Bool) :=
  match w with
  | .four => List.replicate 3 (false, lineLevels (0x3 : Nibble)) ++ [(false, lineLevels (0x2 : Nibble))]
  | .eight => List.replicate 3 (false, lineLevels fs)

/-- The transfers of INIT: the handshake, and then the three shadows as command bytes (R132, R133). -/
theorem transcript_initEvents (c : Config) (w : BusWidth) (fs dc dm : Byte) {l : Lines} (hd : l.d.length = w.lines)
    (he : l.e = false) :
    transcript l (initEvents c w fs dc dm) =
      handshakeTransfers w fs ++
        (byteTransfers w false fs ++ (byteTransfers w false dc ++ byteTransfers w false dm)) := by
  cases w with
  | four =>
    change l.d.length = 4 at hd
    simp [initEvents_four, writeByte_four, transcript_driveRs, transcript_wait, transcript_transfer_append,
      transcript_transfer, handshakeTransfers, byteTransfers, lineLevels, hd, he]
  | eight =>
    change l.d.length = 8 at hd
    simp [initEvents_eight, writeByte_eight, transcript_driveRs, transcript_wait, transcript_transfer_append,
      transcript_transfer, handshakeTransfers, byteTransfers, lineLevels, hd, he]

/-! ## The handshake -/

/-- R203: a byte with the high nibble 3 or 2 is a FunctionSet, for 8-bit or for 4-bit mode. -/
theorem functionSet_of_highNibble {b : Byte} {eight : Bool} (h : highNibble b = if eight then 0x3 else 0x2) :
    isFunctionSet false b = true ∧ b.getLsbD 4 = eight := by
  revert b eight; decide +kernel

theorem highNibble_append (high low : Nibble) : highNibble (high ++ low) = high := by
  revert high low; decide +kernel

/-- A FunctionSet byte puts the receiver in phase, in the bus mode it names. -/
theorem Receiver.act_inPhase (r : Receiver) {w : BusWidth} {b : Byte}
    (hb : highNibble b = if decide (w = .eight) then 0x3 else 0x2) : (r.act false b).InPhase w := by
  obtain ⟨hfunction, hmode⟩ := functionSet_of_highNibble hb
  obtain ⟨hbit, hhigh, -⟩ := r.act_mode false b
  exact ⟨by rw [hbit, if_pos hfunction, hmode], by rw [hhigh, if_pos hfunction]⟩

/-- No byte leaves a receiver waiting for a low nibble, if it was not. -/
theorem Receiver.act_high_none {r : Receiver} (h : r.high = none) (rs : Bool) (b : Byte) :
    (r.act rs b).high = none := by
  obtain ⟨-, hhigh, -⟩ := r.act_mode rs b
  rw [hhigh, h, ite_self]

/-- In 8-bit mode a transfer of the nibble 3 or 2 puts the receiver in phase, whatever is on its other pins. -/
theorem Receiver.take_inPhase {r : Receiver} (h : r.eightBit = true) {w : BusWidth} {c : Config} {d : List Bool}
    (hd : highNibble (receiverPins c d r.latches) = if decide (w = .eight) then 0x3 else 0x2) :
    (r.take c (false, d)).InPhase w := by
  rw [Receiver.take, Receiver.latch_of_eightBit h]
  exact Receiver.act_inPhase _ hd

section
variable {c : Config} {d : List Bool} (hd : ∀ latch, highNibble (receiverPins c d latch) = 0x3)
include hd

/-- Two nibbles 3 make a FunctionSet for 8-bit mode of a receiver that pairs them. -/
theorem Receiver.InPhase.take_pair {r : Receiver} (hr : r.InPhase .four) :
    ((r.take c (false, d)).take c (false, d)).InPhase .eight := by
  obtain ⟨hmode, hhigh⟩ := hr
  simp only [Receiver.take]
  rw [Receiver.latch_of_first hmode hhigh, Receiver.latch_of_second (by exact hmode) rfl, pairedSelect_self, hd, hd]
  exact Receiver.act_inPhase _ (highNibble_append _ _)

/-- R202: three transfers of the nibble 3 leave every receiver in 8-bit mode and in phase. In 8-bit mode each of them is
a FunctionSet. In 4-bit mode two of them are one, whether the first completes a byte that nobody knows or not. -/
theorem Receiver.take_three (r : Receiver) :
    ((List.replicate 3 (false, d)).foldl (Receiver.take c) r).InPhase .eight := by
  have stays : ∀ r : Receiver, r.eightBit = true → (r.take c (false, d)).InPhase .eight :=
    fun r h => Receiver.take_inPhase h (hd r.latches)
  change (((r.take c (false, d)).take c (false, d)).take c (false, d)).InPhase .eight
  cases hmode : r.eightBit with
  | true => exact stays _ (stays _ (stays r hmode).mode).mode
  | false =>
    rcases hhigh : r.high with _ | ⟨first, high⟩
    · have hr : r.InPhase .four := ⟨hmode, hhigh⟩
      exact stays _ (Receiver.InPhase.take_pair hd hr).mode
    · have hfirst : (r.take c (false, d)).high = none := by
        rw [Receiver.take, Receiver.latch_of_second hmode hhigh]
        exact Receiver.act_high_none rfl _ _
      cases hnext : (r.take c (false, d)).eightBit with
      | true => exact stays _ (stays _ hnext).mode
      | false => exact Receiver.InPhase.take_pair hd ⟨hnext, hfirst⟩

end

/-- The bits a FunctionSet byte of the block's width has, whatever its flags are (R23). -/
theorem functionSet_bits {b : Byte} {w : BusWidth} (h : b &&& 0xF3 = functionSetBase w) :
    b.getLsbD 7 = false ∧ b.getLsbD 6 = false ∧ b.getLsbD 5 = true ∧ b.getLsbD 4 = decide (w = .eight) := by
  revert b; cases w <;> decide +kernel

/-- R202: INIT's handshake puts every receiver in phase. -/
theorem Receiver.take_handshakeTransfers (r : Receiver) {c : Config} {w : BusWidth}
    (hc : c.wiring = (Config.ardt w.lines).wiring) {fs : Byte} (hfs : fs &&& 0xF3 = functionSetBase w) :
    ((handshakeTransfers w fs).foldl (Receiver.take c) r).InPhase w := by
  cases w with
  | four =>
    rw [handshakeTransfers, List.foldl_append]
    exact Receiver.take_inPhase (r.take_three (highNibble_receiverPins hc 0x3)).mode (highNibble_receiverPins hc 0x2 _)
  | eight =>
    have key : ∀ b : Byte, b &&& 0xF3 = 0x30 → highNibble b = 0x3 := by decide +kernel
    exact r.take_three fun latch => by rw [receiverPins_eight hc, key fs hfs]

/-! ## The three shadows as commands -/

/-- R203: FunctionSet. -/
theorem Receiver.act_functionSet (r : Receiver) {b : Byte} {w : BusWidth} (hb : b &&& 0xF3 = functionSetBase w) :
    r.act false b =
      { r with
        eightBit := decide (w = .eight), high := none, twoLine := b.getLsbD 3, tallFont := b.getLsbD 2 } := by
  obtain ⟨h7, h6, h5, h4⟩ := functionSet_bits hb
  simp only [Receiver.act, Receiver.command, h7, h6, h5, h4, Bool.false_eq_true, ↓reduceIte]

/-- R203: display control. -/
theorem Receiver.act_displayControl (r : Receiver) {b : Byte} (hb : b &&& 0xF8 = 0x08) :
    r.act false b =
      { r with displayOn := b.getLsbD 2, cursorOn := b.getLsbD 1, blinkOn := b.getLsbD 0 } := by
  have key : ∀ b : Byte, b &&& 0xF8 = 0x08 → b.getLsbD 7 = false ∧ b.getLsbD 6 = false ∧ b.getLsbD 5 = false ∧
      b.getLsbD 4 = false ∧ b.getLsbD 3 = true := by decide +kernel
  obtain ⟨h7, h6, h5, h4, h3⟩ := key b hb
  simp only [Receiver.act, Receiver.command, h7, h6, h5, h4, h3, Bool.false_eq_true, ↓reduceIte]

/-- R203: entry mode. -/
theorem Receiver.act_displayMode (r : Receiver) {b : Byte} (hb : b &&& 0xFC = 0x04) :
    r.act false b = { r with entryLeft := b.getLsbD 1, entryShift := b.getLsbD 0 } := by
  have key : ∀ b : Byte, b &&& 0xFC = 0x04 → b.getLsbD 7 = false ∧ b.getLsbD 6 = false ∧ b.getLsbD 5 = false ∧
      b.getLsbD 4 = false ∧ b.getLsbD 3 = false ∧ b.getLsbD 2 = true := by decide +kernel
  obtain ⟨h7, h6, h5, h4, h3, h2⟩ := key b hb
  simp only [Receiver.act, Receiver.command, h7, h6, h5, h4, h3, h2, Bool.false_eq_true, ↓reduceIte]

/-- The receiver is in phase, and its flags are those of the shadows (R202). -/
structure Receiver.Mirrors (r : Receiver) (w : BusWidth) (fs dc dm : Byte) : Prop where
  inPhase : r.InPhase w
  twoLine : r.twoLine = fs.getLsbD 3
  tallFont : r.tallFont = fs.getLsbD 2
  displayOn : r.displayOn = dc.getLsbD 2
  cursorOn : r.cursorOn = dc.getLsbD 1
  blinkOn : r.blinkOn = dc.getLsbD 0
  entryLeft : r.entryLeft = dm.getLsbD 1
  entryShift : r.entryShift = dm.getLsbD 0

/-- Each of the three bytes reaches a receiver in phase, sets its own flags and keeps the receiver in phase. -/
theorem Receiver.InPhase.take_shadows {r : Receiver} {s : State} {w : BusWidth} (hr : r.InPhase w)
    (hs : s.ShadowsShaped w) {c : Config} (hc : c.wiring = (Config.ardt w.lines).wiring) :
    ((byteTransfers w false s.fs ++ (byteTransfers w false s.dc ++ byteTransfers w false s.dm)).foldl
      (Receiver.take c) r).Mirrors w s.fs s.dc s.dm := by
  rw [List.foldl_append, List.foldl_append, hr.take_byteTransfers hc, Receiver.act_functionSet _ hs.fs,
    Receiver.InPhase.take_byteTransfers ⟨rfl, rfl⟩ hc false s.dc, Receiver.act_displayControl _ hs.dc,
    Receiver.InPhase.take_byteTransfers ⟨rfl, rfl⟩ hc, Receiver.act_displayMode _ hs.dm]
  exact ⟨⟨rfl, rfl⟩, rfl, rfl, rfl, rfl, rfl, rfl, rfl⟩

/-! ## INIT -/

theorem Lines.applyAll_d_length (l : Lines) (events : List BusEvent) : (l.applyAll events).d.length = l.d.length := by
  induction events generalizing l with
  | nil => rfl
  | cons event events ih =>
    rw [Lines.applyAll_cons, ih]
    rcases event with ⟨_ | _ | i, v⟩ | t <;> simp

/-- In a state of a run the block has a data line for each bit of its width (R21, R36). -/
theorem State.Inv.lines_d_length {s : State} (h : s.Inv) {w : BusWidth} (hw : s.config.width? = some w) :
    s.lines.d.length = w.lines := by
  rw [h.levels w hw, Lines.replay, Lines.applyAll_d_length]
  exact List.length_replicate

/-- In an idle state of a run E is low (R188). -/
theorem State.Inv.enable_of_ready {s : State} (h : s.Inv) {w : BusWidth} (hr : s.Ready w) : s.lines.e = false := by
  simpa [h.seq_of_idle hr.busy] using h.enableRests w hr.width

/-- R202: the events of INIT, from lines at rest, leave every receiver with the flags of the shadows. -/
theorem Receiver.observe_initEvents (r : Receiver) {c : Config} {s : State} {w : BusWidth} {l : Lines}
    (hc : c.wiring = (Config.ardt w.lines).wiring) (hs : s.ShadowsShaped w) (hd : l.d.length = w.lines)
    (he : l.e = false) :
    (Receiver.observe c r l (initEvents c w s.fs s.dc s.dm)).Mirrors w s.fs s.dc s.dm := by
  have hr := r.take_handshakeTransfers hc hs.fs
  rw [Receiver.observe_eq_foldl_transcript, transcript_initEvents c w s.fs s.dc s.dm hd he,
    List.foldl_append]
  exact hr.take_shadows hs hc

/-- The flags of FS after INIT's register update (R131): the rows given, and the font as it was. -/
theorem functionSet_flags_of_rows (fs rows : Byte) :
    (if rows = 2 then fs ||| 0x08 else fs &&& 0xF7).getLsbD 3 = decide (rows = 2) ∧
      (if rows = 2 then fs ||| 0x08 else fs &&& 0xF7).getLsbD 2 = fs.getLsbD 2 := by
  by_cases h : rows = 2
  · simp [h]
  · rw [if_neg h, decide_eq_false h]
    simp

/-- Settles O57: INIT's transfers are a handshake that leaves every receiver in phase, and three command bytes that
then reach it and set its flags. -/
theorem initSynchronisesEveryReceiver : Obligations.InitSynchronisesEveryReceiver := by
  unfold Obligations.InitSynchronisesEveryReceiver
  intro s t w columns rows r hinv hr hc hrows hexec r'
  have hshaped : t.ShadowsShaped w := (hinv.exec hexec).shadows w (by rw [exec_config hexec, hr.width])
  rw [exec_init_pending hr columns hrows] at hexec
  cases hexec
  obtain ⟨⟨hmode, hhigh⟩, htwo, htall, hdisplay, hcursor, hblink, hleft, hshift⟩ :=
    r.observe_initEvents hc hshaped (hinv.lines_d_length hr.width) (hinv.enable_of_ready hr)
  obtain ⟨hrow, hfont⟩ := functionSet_flags_of_rows s.fs rows
  exact ⟨hmode, hhigh, htwo.trans hrow, htall.trans hfont, hdisplay, hcursor, hblink, hleft, hshift⟩

end Sys2Proof.Machine
end

section
/-! PROOFS. What a fault discards, and what only a reset undoes: a faulted block's meanings, steps and reset, and the
accesses no host may make (60_exceptions.md R224, R229; 70_reset_and_hazards.md R250, R257, R259). -/

namespace Sys2Proof.Machine

/-! ## Steps of a faulted block -/

/-- With nothing pending a block step changes nothing (R33). -/
theorem State.blockStep_of_idle {s : State} (hs : s.seq = []) : s.blockStep = s := by
  rw [State.blockStep, hs]

/-- A faulted block has nothing pending (R223), whatever the host still does. -/
theorem State.Inv.blockStep_of_fault {s : State} (h : s.Inv) (hf : s.status.fault = true) (host : List HostAction) :
    { s with host := host }.blockStep = { s with host := host } :=
  State.blockStep_of_idle (s := { s with host := host }) (h.quiet hf).1

/-- Settles O16: with nothing pending no block step changes the block, and a REQ write is discarded; every other action
but a reset moves the host's fields only. -/
theorem faultHaltsTheBlock : Obligations.FaultHaltsTheBlock := by
  unfold Obligations.FaultHaltsTheBlock
  intro s t hinv hf hreset hstep
  rcases step_cases hstep with ⟨_, rfl⟩ | ⟨rest, _, rfl⟩ | ⟨_, _, rest, _, _, rfl⟩ | ⟨_, _, rest, _, _, _, rfl⟩ |
    ⟨_, b, rest, _, _, _, hreq⟩ | ⟨_, _, _, rest, _, _, _, rfl⟩ | ⟨rest, hr, _⟩
  · rw [hinv.blockStep_of_fault hf s.host]
  · rw [hinv.blockStep_of_fault hf rest]
  · rfl
  · rw [hinv.blockStep_of_fault hf s.host]
  · rw [State.writeReq_of_fault (s := { s with host := rest }) hf b] at hreq
    cases hreq
    rfl
  · rfl
  · exact absurd hr (hreset rest)

/-! ## The outside world's actions -/

theorem step_of_action {s : State} {action : HostAction} {rest : List HostAction} (hh : s.host = action :: rest) :
    step s = s.hostStep action rest := by
  rw [step, State.nextStep, hh]

/-- A reset of a block of legal width is the construction of R250, beside the host as it is. -/
theorem State.rebuild_of_legal {s : State} {w : BusWidth} (hw : s.config.width? = some w) :
    s.rebuild =
      { State.constructed s.config w with host := s.host, answers := s.answers, draws := s.draws } := by
  rw [State.rebuild, State.construct_of_legal hw]

/-- STATUS reads 0x00 after reset (R250). -/
theorem State.constructed_status_toByte (c : Config) (w : BusWidth) : (State.constructed c w).status.toByte = 0x00 :=
  (by decide : Status.toByte { busy := false, fault := false, initDone := false, rqPart := false } = 0x00)

/-- Settles O9: the reset action rebuilds the block, and a block of legal width is the one R250 constructs. -/
theorem resetLeavesTheFault : Obligations.ResetLeavesTheFault := by
  unfold Obligations.ResetLeavesTheFault
  intro s rest w hh hw
  refine ⟨State.rebuild { s with host := rest }, step_of_action hh, ?_⟩
  rw [State.rebuild_of_legal (s := { s with host := rest }) hw]
  exact ⟨State.constructed_status_toByte s.config w, rfl, rfl, rfl⟩

/-- The register map is the 256 bytes from REG_BASE (R51, R54). -/
theorem registerOffset_of_outside {c : Config} {address : Nat}
    (h : address < c.regBase ∨ c.regBase + 256 ≤ address) : registerOffset c address = none :=
  if_neg (by omega)

/-- Settles O26: each of these actions has its outcome, and an address outside the map selects no offset. -/
theorem otherAgentsAreRefused : Obligations.OtherAgentsAreRefused := by
  unfold Obligations.OtherAgentsAreRefused
  refine ⟨fun s address b rest hh => step_of_action hh, fun s line v rest hh => step_of_action hh,
    fun s address b rest hout haccess => ?outside⟩
  case outside =>
    rcases haccess with hh | hh <;>
      rw [step_of_action hh, State.hostStep, registerOffset_of_outside hout]

/-! ## Meanings on a block that cannot take a request -/

/-- A faulted block discards a request (R224). -/
theorem State.request_of_fault {s : State} (hf : s.status.fault = true) (op : Opcode)
    (plan : BusWidth → Except ConfigError (State × List BusEvent)) : s.request op plan = .next s :=
  if_pos hf

/-- A busy block has no request step (R259, I37). -/
theorem State.request_of_busy {s : State} (hf : s.status.fault = false) (hb : s.status.busy = true) (op : Opcode)
    (plan : BusWidth → Except ConfigError (State × List BusEvent)) :
    s.request op plan = .refused .requestWhileBusy := by
  simp [State.request, hf, hb]

/-- A faulted block emits no bus traffic (R223, R224). -/
theorem State.traffic_of_fault {s : State} (hf : s.status.fault = true)
    (events : BusWidth → Except Refusal (List BusEvent)) : s.traffic events = .next s :=
  if_pos hf

/-- The meaning of an instruction that a host writes is a request's, and that of any other is bus traffic's. -/
theorem exec_request_or_traffic (i : Instr) (s : State) :
    (∃ op plan, exec i s = s.request op plan) ∨ (requestBytes i = none ∧ ∃ events, exec i s = s.traffic events) := by
  cases i with
  | clear => exact .inl ⟨.clear, fun w => .ok (s, clearEvents s.config w), rfl⟩
  | home => exact .inl ⟨.home, fun w => .ok (s, homeEvents s.config w), rfl⟩
  | print text => exact .inl ⟨.print, fun w => .ok (s, printEvents s.config w text), rfl⟩
  | init _ _ | move _ _ | cglyph _ _ _ _ _ _ _ _ _ | sglyph _ | setbw _ | setlines _ | setfont _ | setdisp _
  | setcurs _ | setblink _ | setdir _ | setshift _ => exact .inl ⟨_, _, rfl⟩
  | wClearDisplay | wReturnHome | wDisplayMode _ _ | wDisplayControl _ _ _ | wFunctionSet _ _ _ | wCgramAddr _
  | wDdramAddr _ _ | wData _ => exact .inr ⟨rfl, fun w => .ok (writeByte s.config w _ _), rfl⟩
  | wInitNibble3 | wInitNibble2 => exact .inr ⟨rfl, _, rfl⟩

/-- Settles O27: every meaning is a request's or bus traffic's, a faulted block discards both, and a busy one refuses the
first. -/
theorem unreadyBlockRunsNoRequest : Obligations.UnreadyBlockRunsNoRequest := by
  unfold Obligations.UnreadyBlockRunsNoRequest
  intro i s
  rcases exec_request_or_traffic i s with ⟨op, plan, hexec⟩ | ⟨hnone, events, hexec⟩
  · rw [hexec]
    exact ⟨fun hf => State.request_of_fault hf op plan, fun _ _ hf hb => State.request_of_busy hf hb op plan⟩
  · refine ⟨fun hf => hexec ▸ State.traffic_of_fault hf events, fun bytes hi => ?_⟩
    exact absurd hnone (by simp [requestBytes, hi])

end Sys2Proof.Machine
end

section
/-! PROOFS. The state reset leaves: the value of every register, and that it is a state of a run (10_state.md R20 to R26;
60_exceptions.md R231; 70_reset_and_hazards.md R250). -/

namespace Sys2Proof.Machine

/-! ## The bus width -/

/-- A legal bus width is the number N of data lines (R20). -/
theorem Config.n_of_width {c : Config} {w : BusWidth} (h : c.width? = some w) : c.n = w.lines := by
  unfold Config.width? at h
  split at h
  case isTrue hfour => cases h; exact hfour
  case isFalse =>
    split at h
    case isTrue height => cases h; exact height
    case isFalse => cases h

theorem Config.width_of_illegal {c : Config} (hfour : c.n ≠ 4) (height : c.n ≠ 8) : c.width? = none := by
  rw [Config.width?, if_neg hfour, if_neg height]

/-! ## The fields reset leaves -/

/-- The FS of R250: the base bit of R23, and the flag 8-bit-bus as (N = 8). -/
theorem State.constructed_fs (c : Config) (w : BusWidth) :
    (State.constructed c w).fs = 0x20 ||| (if w = .eight then 0x10 else 0) := by
  cases w <;> rfl

/-- Without a legal width reset is fault entry with BAD_BUS_WIDTH, before any line is configured (R231, R250 step 1). -/
theorem State.construct_of_illegal {c : Config} (h : c.width? = none) :
    (State.construct c).lines.outputs = false ∧
      (State.construct c).status = { busy := false, fault := true, initDone := false, rqPart := false } ∧
      (State.construct c).errcode = ConfigError.badBusWidth.code ∧ (State.construct c).errinfo = 0x00 := by
  simp [State.construct, h]

/-- Settles O8: with a legal width the registers are read off R250's construction and N off the width; without one reset
is the fault of R231, and the invariant gives an idle, silent block whose shadows have their hardwired bits. -/
theorem resetConstructsTheBlock : Obligations.ResetConstructsTheBlock := by
  unfold Obligations.ResetConstructsTheBlock
  constructor
  · intro c w hw
    have hcfg : (State.constructed c w).readRegister 0x07 = BitVec.ofNat 8 w.lines := by
      rw [State.readRegister_cfg, ← Config.n_of_width hw]
      rfl
    rw [State.construct_of_legal hw]
    exact ⟨rfl, State.constructed_fs c w, rfl, rfl, hcfg, State.constructed_status_toByte c w, rfl, rfl, rfl, rfl, rfl,
      rfl⟩
  · intro c hfour height
    have hw := Config.width_of_illegal hfour height
    have hinv := State.construct_inv c
    obtain ⟨houtputs, hstatus, herrcode, herrinfo⟩ := State.construct_of_illegal hw
    obtain ⟨hfs, hdc, hdm⟩ := hinv.hardwired
    obtain ⟨hseq, hrq⟩ := hinv.quiet (by rw [hstatus])
    have htr := hinv.silent (by rw [State.construct_config, hw])
    have hcfg : (State.construct c).readRegister 0x07 = BitVec.ofNat 8 c.n := by
      rw [State.readRegister_cfg, State.construct_config]
    exact ⟨houtputs, by rw [hstatus]; decide, herrcode, herrinfo, hfs, hdc, hdm, hcfg, hseq, hrq, htr⟩

/-! ## A state of a run -/

/-- The discipline speaks of the parameters and the events only, and in these a constructed block is a reset one. -/
theorem State.construct_pulseDisciplined (c : Config) : (State.construct c).PulseDisciplined := by
  simpa only [State.PulseDisciplined, State.rebuild_config, State.rebuild_tr, State.rebuild_seq,
    State.construct_config] using State.PulseDisciplined.rebuild (State.construct c)

/-- Settles O10: the base case of the invariant and that of the discipline, for every configuration. -/
theorem resetMeetsTheInvariant : Obligations.ResetMeetsTheInvariant := by
  unfold Obligations.ResetMeetsTheInvariant
  exact fun c => ⟨State.construct_inv c, State.construct_pulseDisciplined c⟩

end Sys2Proof.Machine
end
